-- ==== Sys2Proof/Word.lean ====
section
/-! DEFINITION. The words of the links and of the chart flash: bytes, the 16-bit CRC word and the 32-bit header word. -/

namespace Sys2Proof

/-- One received or transmitted character's 8 data bits, or one byte of the chart flash (R158, R132). -/
abbrev Byte := BitVec 8

/-- A CRC word of the links and of the chart flash (R163, R133). -/
abbrev CrcWord := BitVec 16

/-- The 32 code positions of a packet header, position 0 the most significant bit (R160). -/
abbrev HeaderWord := BitVec 32

/-- A frame number: a 32-bit count that wraps (00_scope.md, R5). -/
abbrev FrameNumber := BitVec 32

end Sys2Proof
end

