-- ==== Sys2Proof/Config.lean ====
section
/-! DEFINITION. What a part fixes (the frame rate's raster) and the free values that the manual leaves open. -/

namespace Sys2Proof

/-- The two frame rates that the RATE strap selects (R3). -/
inductive FrameRate where
  | fps50
  | fps5994
  deriving DecidableEq, Repr

/-- Total width of the raster in pixel periods (Table 1-2). -/
def FrameRate.width : FrameRate → Nat
  | .fps50 => 2640
  | .fps5994 => 2200

/-- Total lines of the raster (Table 1-2). -/
def FrameRate.lines : FrameRate → Nat
  | .fps50 => 1125
  | .fps5994 => 1125

/-- Raster total in pixel periods: 2,970,000 or 2,475,000 (Table 1-2). -/
def FrameRate.total (r : FrameRate) : Nat := r.width * r.lines

/-- "Half a frame": floor(total / 2) (section 1.1). -/
def FrameRate.half (r : FrameRate) : Nat := r.total / 2

/-- Free value, DESIGN CHOICE, log 12: byte `address` of the chart flash where a power-on reset during an erase or a program has
left "the contents ... undefined" (R132).
The first argument is the state's counter of free values, so each damage is a fresh one. -/
opaque Config.freeByte : Nat → Nat → Byte

end Sys2Proof
end

