-- ==== Sys2Proof/Syntax.lean ====
section
/-! DEFINITION. The commands of the block: one constructor of `Instr` for each row of spec/opcode_table.json, with its operands. -/

namespace Sys2Proof

/-- The two links (10_link_protocol.md). -/
inductive Link where
  | forecast
  | studio
  deriving DecidableEq, Repr

/-- The two memo slots, by direction (R173). -/
inductive MemoDir where
  | forecastToStudio
  | studioToForecast
  deriving DecidableEq, Repr

/-- The parts of one frame start that a block handles as one piece; `generator` is the timing generator's own step (the nudge, the
offset, the frame number and the schedule), `reference` its holdover count.
They name what a row of the table has handled ahead of FRAME_START (log 6) and the order in which one frame start's notices are
queued (log 7). -/
inductive FramePart where
  | generator
  | reference
  | output
  | timeline (t : Fin 4)
  | blink (b : Fin 4)
  | memo (d : MemoDir)
  | flip (f : Fin 4)
  | render
  deriving DecidableEq, Repr

/-- A complete packet as its link delivers it to command handling (R159, R162): the header fields after R160's decoding, the
payload bytes, the two CRC bytes as one word, and the instant of its last byte in pixel periods (log 3). -/
structure Packet where
  link : Link
  tag : BitVec 3
  arg : BitVec 4
  payload : List Byte
  crc : CrcWord
  time : Nat
  deriving DecidableEq, Repr

/-- The commands of the block, in the order of opcode_table.json. -/
inductive Instr where
  /-- POWER_ON_RESET; the level of the RATE strap (R3, R18). -/
  | powerOnReset (rateHigh : Bool)
  /-- FRAME_START; the order in which its parts' notices are queued (log 7). -/
  | frameStart (order : List FramePart)
  /-- REFERENCE_PULSE; the instant of the pulse (R7). -/
  | referencePulse (time : Nat)
  /-- DECISION_INSTANT (R7). -/
  | decisionInstant
  /-- HOLDOVER_EXPIRY (R12). -/
  | holdoverExpiry
  /-- NUDGE_APPLY (R15). -/
  | nudgeApply
  /-- OFFSET_TAKES_EFFECT (R17). -/
  | offsetTakesEffect
  /-- PENDING_CUT (R22). -/
  | pendingCut
  /-- PANIC_ACTS (R25). -/
  | panicActs
  /-- FLIP; the field set (R59). -/
  | flip (f : Fin 4)
  /-- TIMELINE_COMMIT; the timeline (R76). -/
  | timelineCommit (t : Fin 4)
  /-- BLINK_CYCLE_END; the generator (R88). -/
  | blinkCycleEnd (b : Fin 4)
  /-- MEMO_EXPIRY; the slot (R176). -/
  | memoExpiry (d : MemoDir)
  /-- TILE_FETCH_COMPLETE; the bit errors of the transfer (R139, log 11). -/
  | tileFetchComplete (noise : List Byte)
  /-- JOB_COMPLETE (R128). -/
  | jobComplete
  /-- DEFERRED_WRITE_APPLY (R66). -/
  | deferredWriteApply
  /-- CACHE_RESTORE_APPLY; the link whose command waits (R155). -/
  | cacheRestoreApply (l : Link)
  /-- FLASH_READ_COMPLETE; the bit errors of the transfer (R144, log 11). -/
  | flashReadComplete (noise : List Byte)
  /-- FLASH_PROGRAM_COMPLETE; the bits that fail to take, byte by byte (R145, log 11). -/
  | flashProgramComplete (fails : List Byte)
  /-- FLASH_ERASE_COMPLETE (R146). -/
  | flashEraseComplete
  /-- SCAN_COMPLETE; the bit errors of the transfer (R136, log 11). -/
  | scanComplete (noise : List Byte)
  /-- TRANSMIT_END (R167). -/
  | transmitEnd (l : Link)
  /-- LINE_BREAK (R170). -/
  | lineBreak (l : Link)
  /-- LINE_BREAK_END (R170). -/
  | lineBreakEnd (l : Link)
  /-- FRAMING_ERROR (R158). -/
  | framingError (l : Link)
  /-- RECEIVE_TIMEOUT (R159). -/
  | receiveTimeout (l : Link)
  /-- HEADER_RECEIVED; the four header bytes, first byte most significant (R160). -/
  | headerReceived (l : Link) (header : HeaderWord)
  /-- UNKNOWN_PACKET; the kind code and the packet (R162). -/
  | unknownPacket (kind : BitVec 7) (p : Packet)
  /-- STATUS (R171). -/
  | status (p : Packet)
  /-- ECHO (R171). -/
  | echo (p : Packet)
  /-- FAULT_READ (R154). -/
  | faultRead (p : Packet)
  /-- CACHE_RESTORE (R155). -/
  | cacheRestore (p : Packet)
  /-- MEMO_POST (R174). -/
  | memoPost (p : Packet)
  /-- MEMO_TAKE (R175). -/
  | memoTake (p : Packet)
  /-- MEMO_WITHDRAW (R175). -/
  | memoWithdraw (p : Packet)
  /-- GRID_DEFINE (R53). -/
  | gridDefine (p : Packet)
  /-- GRID_ROWS (R55). -/
  | gridRows (p : Packet)
  /-- GRID_PUBLISH (R57). -/
  | gridPublish (p : Packet)
  /-- GRID_STATUS (R61). -/
  | gridStatus (p : Packet)
  /-- LIST_WRITE (R63). -/
  | listWrite (p : Packet)
  /-- SYMBOL_WRITE (R65). -/
  | symbolWrite (p : Packet)
  /-- FLASH_READ (R144). -/
  | flashRead (p : Packet)
  /-- FLASH_PROGRAM (R145). -/
  | flashProgram (p : Packet)
  /-- FLASH_ERASE (R146). -/
  | flashErase (p : Packet)
  /-- CHART_RESCAN (R147). -/
  | chartRescan (p : Packet)
  /-- PAGE_DEFINE (R41). -/
  | pageDefine (p : Packet)
  /-- PAGE_DELETE (R43). -/
  | pageDelete (p : Packet)
  /-- PAGE_READ (R44). -/
  | pageRead (p : Packet)
  /-- LOAD (R45). -/
  | load (p : Packet)
  /-- UNLOAD (R48). -/
  | unload (p : Packet)
  /-- TAKE (R23). -/
  | take (p : Packet)
  /-- CLEAR (R24). -/
  | clear (p : Packet)
  /-- PANIC (R25). -/
  | panic (p : Packet)
  /-- PALETTE_WRITE (R31). -/
  | paletteWrite (p : Packet)
  /-- TIMELINE_SET (R80). -/
  | timelineSet (p : Packet)
  /-- TIMELINE_STEPS (R81). -/
  | timelineSteps (p : Packet)
  /-- TIMELINE_RUN (R82). -/
  | timelineRun (p : Packet)
  /-- TIMELINE_STOP (R83). -/
  | timelineStop (p : Packet)
  /-- TIMELINE_JUMP (R84). -/
  | timelineJump (p : Packet)
  /-- TIMELINE_CLEAR (R85). -/
  | timelineClear (p : Packet)
  /-- BLINK_SET (R90). -/
  | blinkSet (p : Packet)
  /-- OFFSET (R16). -/
  | offset (p : Packet)
  /-- NUDGE (R14). -/
  | nudge (p : Packet)
  /-- START_BYTE (R159). -/
  | startByte (l : Link)
  /-- CACHE_HIT_PARITY_ERROR; the tile whose entry is hit (R151). -/
  | cacheHitParityError (tile : Fin 256)
  deriving DecidableEq, Repr

end Sys2Proof
end

