-- ==== Sys2Proof/Decode.lean ====
section
/-! DEFINITION. Reading a command from a table word: no row of spec/opcode_table.json gives bits, so no word spells a command. -/

namespace Sys2Proof

/-- The command that a word spells by the table's bits: every row of opcode_table.json has "fields": [] and no fixed bits, so
there is none (log 2). -/
def decodeTableWord (_nbits _w : Nat) : Option Instr := none

end Sys2Proof
end

