-- ==== Sys2Proof/Machine/State.lean ====
section
/-! DEFINITION. The state of the block as plain data, block by block as Table 0-1 names them, and its value after power-on reset. -/

namespace Sys2Proof.Machine

/-! ### Sparse memories -/

/-- An addressed memory: the pairs of an address and what stands there, addresses rising, with no pair whose value is what an
unlisted address reads as.
The chart flash (R132) and the frame buffers (R109) are held so. -/
abbrev Mem (α : Type) := List (Nat × α)

/-! ### Timing generator (chapter 1) -/

/-- How the generator relates to the station reference (R9-R12). -/
inductive RefState where
  | free
  | acquire
  | locked
  | holdover
  deriving DecidableEq, Repr

/-- A nudge accepted and not yet applied, with what R15 asks of it. -/
structure PendingNudge where
  /-- -15..-1 or 1..16 pixel periods. -/
  amount : Int
  /-- The instant at which the NUDGE was taken. -/
  takenAt : Nat
  /-- An offset was pending when the NUDGE was taken and has not yet taken effect. -/
  behindOffset : Bool
  /-- The frame start at which that offset took effect. -/
  offsetAt : Option Nat
  deriving DecidableEq, Repr

/-- Table 1-1. -/
structure Timing where
  rate : FrameRate
  offset : Nat
  pendingOffset : Option Nat
  nudge : Option PendingNudge
  refState : RefState
  expected : Option Nat
  pulseSeen : Bool
  inWindow : Nat
  mismatch : Nat
  holdover : Nat
  frame : FrameNumber
  /-- The scheduled frame start, as it stands before a pending nudge moves it (R15). -/
  scheduled : Nat
  /-- The instant at which that frame start was scheduled (R15). -/
  scheduledAt : Nat
  /-- The frame start that began the frame in progress: the output pixel position is `now - began` (R4). -/
  began : Nat
  /-- While a PANIC waits: the first line start after it was taken, a frame start at or before it counting as one (R25, log 30). -/
  panicAt : Option Nat
  /-- The present instant, in pixel periods since power-on reset ended (log 3). -/
  now : Nat
  deriving DecidableEq, Repr

/-! ### Output stage (chapter 2) -/

/-- Where the output stands in its fade cycle (R19). -/
inductive OutputState where
  | dark
  | fadeIn
  | onAir
  | fadeOut
  deriving DecidableEq, Repr

/-- A pending cut (R22). -/
inductive Cut where
  | toOnAir
  | toDark
  deriving DecidableEq, Repr

/-- A palette entry (section 2.1). -/
structure Colour where
  y : Nat
  cb : Nat
  cr : Nat
  key : Nat
  deriving DecidableEq, Repr

/-- Table 2-1. -/
structure OutputStage where
  state : OutputState
  acc : Nat
  slope : Nat
  cut : Option Cut
  keyEnable : Bool
  /-- The line start of the raster in progress from which the key enable is clear, its page having ceased to be LOADED or OUTGOING
  (R28, log 26). -/
  keyDropAt : Option Nat
  palette : Vector Colour 32
  staged : Vector Colour 32
  deriving DecidableEq, Repr

/-! ### Page table (chapter 3) -/

/-- Where a data layer takes its slots from: a timeline, or a fixed slot when the timeline is absent (R35). -/
inductive SlotSource where
  | timeline (t : Fin 4)
  | fixed (slot : Nat)
  deriving DecidableEq, Repr

/-- The fields of a COAST layer (Table 3-2). -/
structure CoastLayer where
  land : Nat
  line : Nat
  width : Nat
  deriving DecidableEq, Repr

/-- The fields of a TIDE_SHADE layer (Table 3-2). -/
structure ShadeLayer where
  fieldSet : Fin 4
  source : SlotSource
  base : Int
  step : Nat
  first : Nat
  deriving DecidableEq, Repr

/-- The fields of a STREAM_ARROWS layer (Table 3-2). -/
structure ArrowLayer where
  fieldSet : Fin 4
  source : SlotSource
  arrow : Nat
  slack : Nat
  gain : Nat
  threshold : Nat
  stride : Nat
  suppress : Bool
  blink : Option (Fin 4)
  deriving DecidableEq, Repr

/-- The fields of a WIND_BARBS layer (Table 3-2). -/
structure BarbLayer where
  fieldSet : Fin 4
  source : SlotSource
  barb : Nat
  stride : Nat
  suppress : Bool
  blink : Option (Fin 4)
  deriving DecidableEq, Repr

/-- A layer record (section 3.3). -/
inductive Layer where
  | coast (c : CoastLayer)
  | tideShade (c : ShadeLayer)
  | streamArrows (c : ArrowLayer)
  | windBarbs (c : BarbLayer)
  | symbols (list : Fin 8)
  deriving DecidableEq, Repr

/-- A viewport: the chart window and the screen window (section 3.1). -/
structure Viewport where
  cx0 : Nat
  cy0 : Nat
  cw : Nat
  ch : Nat
  sx0 : Nat
  sy0 : Nat
  sw : Nat
  sh : Nat
  deriving DecidableEq, Repr

/-- The content of a page (Table 3-1). -/
structure PageRecord where
  view : Viewport
  sea : Nat
  layers : List Layer
  deriving DecidableEq, Repr

/-- The four states of a page (R33), read off the page table by `State.pageState`. -/
inductive PageState where
  | empty
  | defined
  | loaded
  | outgoing
  deriving DecidableEq, Repr

/-- The page table: sixteen contents and which page is LOADED and which OUTGOING (R33). -/
structure PageTable where
  pages : Vector (Option PageRecord) 16
  loaded : Option (Fin 16)
  outgoing : Option (Fin 16)
  deriving DecidableEq, Repr

/-! ### Forecast data store (chapter 4) -/

/-- What each node of a field set holds (R52). -/
inductive FieldKind where
  | wind
  | tide
  deriving DecidableEq, Repr

/-- The role of a bank (R51). -/
inductive BankRole where
  | unused
  | live
  | staging
  | pending
  deriving DecidableEq, Repr

/-- The definition of a field set (Table 4-1). -/
structure Geometry where
  kind : FieldKind
  x0 : Nat
  y0 : Nat
  spacing : Nat
  columns : Nat
  rows : Nat
  slots : Nat
  deriving DecidableEq, Repr

/-- One bank of a field set: its role, its rows of node values, and its written-row map.
A row stands under the key `slot * 48 + row` in both (log 14). -/
structure Bank where
  role : BankRole
  values : Mem (List Int)
  written : List Nat
  deriving DecidableEq, Repr

/-- A field set: EMPTY when it has no geometry (R51). -/
structure FieldSet where
  geometry : Option Geometry
  bank0 : Bank
  bank1 : Bank
  deriving DecidableEq, Repr

/-- A placement record (Table 4-3). -/
structure Placement where
  symbol : Fin 64
  x : Nat
  y : Nat
  body : Nat
  outline : Nat
  blink : Option (Fin 4)
  figure : Option Int
  deriving DecidableEq, Repr

/-- The forecast data store: field sets, placement lists and symbol bitmaps of 256 bytes, four codes to a byte (R64, R181). -/
structure FieldStore where
  sets : Vector FieldSet 4
  lists : Vector (List Placement) 8
  symbols : Vector (List Byte) 64
  deriving DecidableEq, Repr

/-! ### Timeline unit (chapter 5) -/

/-- The four states of a timeline (R69). -/
inductive TimelineState where
  | stopped
  | armed
  | stepping
  | stopping
  deriving DecidableEq, Repr

/-- A timeline's values for a frame (R78, R79). -/
structure TimelineValues where
  s : Nat
  q : Nat
  reverse : Bool
  boundary : Bool
  deriving DecidableEq, Repr

/-- Table 5-1. -/
structure Timeline where
  state : TimelineState
  s : Nat
  q : Nat
  k : Nat
  counter : Nat
  queued : Nat
  reverse : Bool
  rate : Nat
  nextRate : Option Nat
  tf : Nat
  lead : Nat
  tr : Nat
  span : Nat
  period : Nat
  /-- The values for the frame, as its frame start left them (R1, R86). -/
  shown : TimelineValues
  deriving DecidableEq, Repr

/-- Table 5-7; `on` is the phase ON, and `enabledAt` is the instant at which a BLINK SET enabled the generator, until a frame start is
handled after it (R91, log 31). -/
structure Blink where
  enabled : Bool
  counter : Nat
  period : Nat
  onCount : Nat
  staged : Option (Nat × Nat)
  on : Bool
  enabledAt : Option Nat
  deriving DecidableEq, Repr

/-! ### Render controller (chapter 7) -/

/-- The two frame buffers. -/
inductive BufferId where
  | a
  | b
  deriving DecidableEq, Repr

/-- The role of a frame buffer (R109). -/
inductive BufferRole where
  | front
  | free
  | rendering
  | ready
  deriving DecidableEq, Repr

/-- A frame buffer: its role, its page tag, and its palette indices by `y * 1920 + x` (Table 7-1). -/
structure FrameBuffer where
  role : BufferRole
  tag : Option (Fin 16)
  pixels : Mem Nat
  deriving DecidableEq, Repr

/-- A captured live bank: which of the two banks, and the geometry for the frame (R60, R111).
The bank's rows are read through the reference, since nothing may change a held bank (R60). -/
structure Captured where
  second : Bool
  geometry : Geometry
  deriving DecidableEq, Repr

/-- Table 7-2, with how far the drawing has come. -/
structure Job where
  buffer : BufferId
  page : Fin 16
  record : PageRecord
  frame : FrameNumber
  timelines : Vector TimelineValues 4
  phases : Vector Bool 4
  captured : Vector (Option Captured) 4
  announce : Bool
  poisoned : Bool
  /-- No PAGE DEFINE or PAGE DELETE of the page was carried out while the job was in flight (R41, R43, R128). -/
  contentStands : Bool
  /-- How many drawing items of the job are drawn (log 9). -/
  drawn : Nat
  /-- The tile whose fetch the job waits for (R126). -/
  fetching : Option Nat
  deriving DecidableEq, Repr

/-- A LIST WRITE or SYMBOL WRITE waiting in the deferred-write queue (R66). -/
inductive DeferredWrite where
  | list (l : Fin 8) (records : List Placement) (adjusted : Bool)
  | symbol (id : Fin 64) (codes : List Byte)
  deriving DecidableEq, Repr

/-- Table 7-1. -/
structure Render where
  bufferA : FrameBuffer
  bufferB : FrameBuffer
  job : Option Job
  late : Bool
  newlyLoaded : Option (Fin 16)
  deferred : List DeferredWrite
  deriving DecidableEq, Repr

/-! ### Coastline store (chapter 8) -/

/-- The state of the coastline store (R135). -/
inductive StoreState where
  | scanning
  | valid
  | absent
  | unscanned
  | failed
  deriving DecidableEq, Repr

/-- A directory entry (R133). -/
structure DirEntry where
  offset : Nat
  length : Nat
  allLand : Bool
  deriving DecidableEq, Repr

/-- A decoded tile: 2,048 bytes of land mask and the polylines as lists of tile-local points (R134, R183). -/
structure Tile where
  mask : List Byte
  lines : List (List (Nat × Nat))
  deriving DecidableEq, Repr

/-- A valid cache entry (R138); `parityGood` says that its parity agrees with its decoded tile (log 15). -/
structure CacheEntry where
  tile : Nat
  decoded : Tile
  parityGood : Bool
  stamp : Nat
  deriving DecidableEq, Repr

/-- The flash operation in flight (R143); a RESCAN is a CHART RESCAN's or the power-on scan's. -/
inductive FlashOp where
  | read (address length : Nat)
  | program (address : Nat) (data : List Byte)
  | erase (sector : Nat)
  | rescan (commanded : Bool)
  deriving DecidableEq, Repr

/-- The transfer that holds the flash port (R142). -/
inductive PortUser where
  | fetch
  | read
  deriving DecidableEq, Repr

/-- Table 8-2, the chart flash, the flash port and the working tile of BYPASS (R132, R142, R153). -/
structure Chart where
  flash : Mem Byte
  state : StoreState
  directory : Option (List DirEntry)
  op : Option FlashOp
  port : Option PortUser
  cache : Vector (Option CacheEntry) 64
  working : Option (Nat × Tile)
  suspect : List Nat
  bad : List Nat
  deriving DecidableEq, Repr

/-! ### Fault unit (chapter 9) -/

/-- Severity of a fault (Table 9-2). -/
inductive Severity where
  | soft
  | hard
  deriving DecidableEq, Repr

/-- Kind of a fault (Table 9-2). -/
inductive FaultKind where
  | cacheParity
  | tileCheck
  | tileBad
  | storeFailed
  | directoryCheck
  deriving DecidableEq, Repr

/-- A held fault (Table 9-1). -/
structure FaultRecord where
  severity : Severity
  kind : FaultKind
  tile : Option Nat
  frame : FrameNumber
  deriving DecidableEq, Repr

/-- The cache mode (R149, R155). -/
inductive CacheMode where
  | normal
  | bypass
  deriving DecidableEq, Repr

/-- Table 9-1; the record is EMPTY when absent. -/
structure FaultUnit where
  record : Option FaultRecord
  more : Bool
  mode : CacheMode
  deriving DecidableEq, Repr

/-! ### Link ports (chapter 10) -/

/-- The command kinds of Table 12-2. -/
inductive Kind where
  | status
  | echo
  | faultRead
  | cacheRestore
  | memoPost
  | memoTake
  | memoWithdraw
  | gridDefine
  | gridRows
  | gridPublish
  | gridStatus
  | listWrite
  | symbolWrite
  | flashRead
  | flashProgram
  | flashErase
  | chartRescan
  | pageDefine
  | pageDelete
  | pageRead
  | load
  | unload
  | take
  | clear
  | panic
  | paletteWrite
  | timelineSet
  | timelineSteps
  | timelineRun
  | timelineStop
  | timelineJump
  | timelineClear
  | blinkSet
  | offset
  | nudge
  deriving DecidableEq, Repr

/-- The receive states (R159). -/
inductive RxState where
  | hunting
  | header
  | payload
  deriving DecidableEq, Repr

/-- The fields of a packet header (R160). -/
structure Header where
  away : Bool
  kind : BitVec 7
  tag : BitVec 3
  length : BitVec 11
  arg : BitVec 4
  deriving DecidableEq, Repr

/-- The packet being received: the bytes since the start byte, and the header once it is decoded (Table 10-1). -/
structure RxPacket where
  bytes : List Byte
  header : Option Header
  deriving DecidableEq, Repr

/-- The command in a command slot (Table 10-1). -/
structure CmdRecord where
  kind : Kind
  tag : BitVec 3
  arg : BitVec 4
  payload : List Byte
  deriving DecidableEq, Repr

/-- A packet that the block sends: a reply or a notice (R165, R169). -/
structure TxPacket where
  isNotice : Bool
  kind : BitVec 7
  tag : BitVec 3
  arg : BitVec 4
  payload : List Byte
  deriving DecidableEq, Repr

/-- The error summary: a set of flags (Table 10-3, R166). -/
structure Summary where
  headerCorrected : Bool
  headerLost : Bool
  direction : Bool
  timeout : Bool
  framing : Bool
  noticeLost : Bool
  replyLost : Bool
  deriving DecidableEq, Repr

/-- Table 10-1; `held` says that the receive line still stays at space after a recognised break (R170). -/
structure Port where
  rx : RxState
  packet : Option RxPacket
  held : Bool
  slot : Option CmdRecord
  suppressed : Bool
  queue : List TxPacket
  tx : Option TxPacket
  summary : Summary
  deriving DecidableEq, Repr

/-! ### Memo unit (chapter 11) -/

/-- A memo in its slot (Table 11-1). -/
structure Memo where
  body : List Byte
  countdown : Option Nat
  deriving DecidableEq, Repr

/-- The two memo slots, EMPTY when absent (R173). -/
structure MemoUnit where
  forecastToStudio : Option Memo
  studioToForecast : Option Memo
  deriving DecidableEq, Repr

/-! ### The whole block -/

/-- The state of the CX214: its eleven blocks, and the model's own queue of commands, marks of a frame start being handled
(log 6) and counter of free values (log 12). -/
structure State where
  timing : Timing
  output : OutputStage
  pages : PageTable
  store : FieldStore
  timelines : Vector Timeline 4
  blinks : Vector Blink 4
  render : Render
  chart : Chart
  fault : FaultUnit
  forecast : Port
  studio : Port
  memo : MemoUnit
  ahead : List FramePart
  freeCount : Nat
  pending : List Instr
  deriving DecidableEq, Repr

/-- Why a step stops with a fault: the spec gives every command an effect, so there is no reason and no constructor. -/
inductive Fault where
  deriving DecidableEq, Repr

/-- Why a step has no meaning. -/
inductive Refusal where
  /-- Raised by `exec` alone, for a row that has no meaning yet; safe: nothing is claimed of it. -/
  | notModelled (mnemonic : String)
  deriving DecidableEq, Repr

/-! ### Power-on reset values -/

/-- R18, with the RATE strap's level as read. -/
def Timing.reset (rate : FrameRate) : Timing where
  rate := rate
  offset := 0
  pendingOffset := none
  nudge := none
  refState := .free
  expected := none
  pulseSeen := false
  inWindow := 0
  mismatch := 0
  holdover := 0
  frame := 0
  scheduled := rate.total
  scheduledAt := 0
  began := 0
  panicAt := none
  now := 0

/-- The entry that fills the palette at reset (R32). -/
def Colour.black : Colour := ⟨16, 128, 128, 0⟩

/-- R32. -/
def OutputStage.reset : OutputStage where
  state := .dark
  acc := 0
  slope := 0
  cut := none
  keyEnable := false
  keyDropAt := none
  palette := Vector.replicate 32 Colour.black
  staged := Vector.replicate 32 Colour.black

/-- R50. -/
def PageTable.reset : PageTable where
  pages := Vector.replicate 16 none
  loaded := none
  outgoing := none

/-- A bank of no role with an empty map, its DRAM holding the given rows (R68). -/
def Bank.cleared (values : Mem (List Int)) : Bank := ⟨.unused, values, []⟩

/-- An EMPTY field set with no rows in DRAM (log 14). -/
def FieldSet.blank : FieldSet := ⟨none, Bank.cleared [], Bank.cleared []⟩

/-- R68. -/
def FieldStore.reset : FieldStore where
  sets := Vector.replicate 4 FieldSet.blank
  lists := Vector.replicate 8 []
  symbols := Vector.replicate 64 (List.replicate 256 0)

/-- R87; the period of no step is that of rate code 4 (log 27). -/
def Timeline.reset : Timeline where
  state := .stopped
  s := 0
  q := 0
  k := 0
  counter := 0
  queued := 0
  reverse := false
  rate := 4
  nextRate := none
  tf := 16
  lead := 0
  tr := 16
  span := 25
  period := 20
  shown := ⟨0, 0, false, true⟩

/-- R92. -/
def Blink.reset : Blink where
  enabled := true
  counter := 0
  period := 50
  onCount := 25
  staged := none
  on := true
  enabledAt := none

/-- A FREE buffer with no page tag, its DRAM holding the given indices (R131). -/
def FrameBuffer.cleared (pixels : Mem Nat) : FrameBuffer := ⟨.free, none, pixels⟩

/-- R131; the DRAM of the buffers holds index 0 at first power-up (log 14). -/
def Render.reset : Render where
  bufferA := FrameBuffer.cleared []
  bufferB := FrameBuffer.cleared []
  job := none
  late := false
  newlyLoaded := none
  deferred := []

/-- R148; the chart flash holds FFh everywhere before anything is programmed (log 13). -/
def Chart.reset : Chart where
  flash := []
  state := .scanning
  directory := none
  op := some (.rescan false)
  port := none
  cache := Vector.replicate 64 none
  working := none
  suspect := []
  bad := []

/-- R157. -/
def FaultUnit.reset : FaultUnit := ⟨none, false, .normal⟩

/-- The empty error summary (R166). -/
def Summary.empty : Summary := ⟨false, false, false, false, false, false, false⟩

/-- R172; a receive line that is at space when the reset ends is no break already recognised (log 33). -/
def Port.reset : Port where
  rx := .hunting
  packet := none
  held := false
  slot := none
  suppressed := false
  queue := []
  tx := none
  summary := Summary.empty

/-- R178. -/
def MemoUnit.reset : MemoUnit := ⟨none, none⟩

/-- The block right after power-on reset, with the RATE strap low (log 20) and no command waiting. -/
def State.reset : State where
  timing := Timing.reset .fps50
  output := OutputStage.reset
  pages := PageTable.reset
  store := FieldStore.reset
  timelines := Vector.replicate 4 Timeline.reset
  blinks := Vector.replicate 4 Blink.reset
  render := Render.reset
  chart := Chart.reset
  fault := FaultUnit.reset
  forecast := Port.reset
  studio := Port.reset
  memo := MemoUnit.reset
  ahead := []
  freeCount := 0
  pending := []

end Sys2Proof.Machine
end

