-- ==== Sys2Proof/Machine/Flags.lean ====
section
/-! DEFINITION. The codes and flags that packets carry: kind codes, status codes, the error summary byte, enumerated values, and
the bytes of multi-byte fields (chapter 12). -/

namespace Sys2Proof.Machine

/-! ### Multi-byte fields, most significant byte first (12_packet_and_record_formats.md) -/

/-- One byte of a natural number, modulo 256. -/
def byteOf (n : Nat) : Byte := BitVec.ofNat 8 n

/-- Two bytes, most significant first. -/
def bytes2 (n : Nat) : List Byte := [byteOf (n / 256), byteOf n]

/-- Three bytes, most significant first. -/
def bytes3 (n : Nat) : List Byte := [byteOf (n / 65536), byteOf (n / 256), byteOf n]

/-- Four bytes, most significant first. -/
def bytes4 (n : Nat) : List Byte :=
  [byteOf (n / 16777216), byteOf (n / 65536), byteOf (n / 256), byteOf n]

/-- Two bytes in two's complement, most significant first. -/
def signed2 (n : Int) : List Byte := bytes2 (BitVec.ofInt 16 n).toNat

/-- A flag byte: bit 0. -/
def flagByte (b : Bool) : Byte := if b then 1 else 0

/-- The marker byte of an absent one-byte field (R186). -/
def absentByte : Byte := 0xFF

/-- A one-byte index field with its marker (R186). -/
def optByte : Option Nat → Byte
  | none => absentByte
  | some n => byteOf n

/-- A page field with its marker (R186). -/
def pageByte : Option (Fin 16) → Byte
  | none => absentByte
  | some p => byteOf p.val

/-- A tile id, 2 bytes, FFFFh when absent (R186). -/
def tileBytes : Option Nat → List Byte
  | none => [absentByte, absentByte]
  | some t => bytes2 t

/-- A memo countdown, 2 bytes, 0 when absent (R186). -/
def countdownBytes : Option Nat → List Byte
  | none => [0, 0]
  | some n => bytes2 n

/-- A frame number, 4 bytes (R182). -/
def frameBytes (n : FrameNumber) : List Byte := bytes4 n.toNat

/-! ### Status codes (Table 0-7, R180) -/

/-- The status codes. -/
inductive Status where
  | ok
  | adjusted
  | busy
  | role
  | unknown
  | length
  | dataError
  | range
  | pageInUse
  | noPage
  | viewport
  | pending
  | incomplete
  | moving
  | nudgePending
  | chartInUse
  | chartBusy
  | verifyFailed
  | slotFull
  | empty
  deriving DecidableEq, Repr

/-- R180: the codes 0 to 19 in the order of Table 0-7. -/
def Status.code : Status → Byte
  | .ok => 0
  | .adjusted => 1
  | .busy => 2
  | .role => 3
  | .unknown => 4
  | .length => 5
  | .dataError => 6
  | .range => 7
  | .pageInUse => 8
  | .noPage => 9
  | .viewport => 10
  | .pending => 11
  | .incomplete => 12
  | .moving => 13
  | .nudgePending => 14
  | .chartInUse => 15
  | .chartBusy => 16
  | .verifyFailed => 17
  | .slotFull => 18
  | .empty => 19

/-- OK, or ADJUSTED when something was clamped or served (R2). -/
def okOr (adjusted : Bool) : Status := if adjusted then .adjusted else .ok

/-! ### Error summary (Table 10-3, R180) -/

/-- The summary byte: bits 0 to 6 in the order of Table 10-3, bit 7 zero (R180). -/
def Summary.byte (f : Summary) : Byte :=
  flagByte f.headerCorrected ||| (flagByte f.headerLost <<< 1) ||| (flagByte f.direction <<< 2) |||
    (flagByte f.timeout <<< 3) ||| (flagByte f.framing <<< 4) ||| (flagByte f.noticeLost <<< 5) |||
    (flagByte f.replyLost <<< 6)

/-! ### Kind codes and roles (Tables 12-2 and 10-2) -/

/-- Table 12-2. -/
def Kind.code : Kind → BitVec 7
  | .status => 0x01
  | .echo => 0x02
  | .faultRead => 0x03
  | .cacheRestore => 0x04
  | .memoPost => 0x05
  | .memoTake => 0x06
  | .memoWithdraw => 0x07
  | .gridDefine => 0x10
  | .gridRows => 0x11
  | .gridPublish => 0x12
  | .gridStatus => 0x13
  | .listWrite => 0x14
  | .symbolWrite => 0x15
  | .flashRead => 0x18
  | .flashProgram => 0x19
  | .flashErase => 0x1A
  | .chartRescan => 0x1B
  | .pageDefine => 0x20
  | .pageDelete => 0x21
  | .pageRead => 0x22
  | .load => 0x23
  | .unload => 0x24
  | .take => 0x28
  | .clear => 0x29
  | .panic => 0x2A
  | .paletteWrite => 0x2B
  | .timelineSet => 0x30
  | .timelineSteps => 0x31
  | .timelineRun => 0x32
  | .timelineStop => 0x33
  | .timelineJump => 0x34
  | .timelineClear => 0x35
  | .blinkSet => 0x38
  | .offset => 0x3C
  | .nudge => 0x3D

/-- Every command kind, in the order of Table 12-2. -/
def Kind.all : List Kind :=
  [.status, .echo, .faultRead, .cacheRestore, .memoPost, .memoTake, .memoWithdraw, .gridDefine, .gridRows,
    .gridPublish, .gridStatus, .listWrite, .symbolWrite, .flashRead, .flashProgram, .flashErase,
    .chartRescan, .pageDefine, .pageDelete, .pageRead, .load, .unload, .take, .clear, .panic,
    .paletteWrite, .timelineSet, .timelineSteps, .timelineRun, .timelineStop, .timelineJump,
    .timelineClear, .blinkSet, .offset, .nudge]

/-- The command kind of a code, if there is one: "Every other kind code is unknown under R162." -/
def kindOfCode (code : BitVec 7) : Option Kind := Kind.all.find? (fun k => k.code == code)

/-- The one link that may send a command, or none where both may (Table 10-2). -/
def Kind.onlyLink : Kind → Option Link
  | .status | .echo | .faultRead | .cacheRestore | .memoPost | .memoTake | .memoWithdraw => none
  | .gridDefine | .gridRows | .gridPublish | .gridStatus | .listWrite | .symbolWrite | .flashRead
  | .flashProgram | .flashErase | .chartRescan => some .forecast
  | .pageDefine | .pageDelete | .pageRead | .load | .unload | .take | .clear | .panic | .paletteWrite
  | .timelineSet | .timelineSteps | .timelineRun | .timelineStop | .timelineJump | .timelineClear
  | .blinkSet | .offset | .nudge => some .studio

/-- Table 10-2: a command listed for one link only is not permitted on the other. -/
def Kind.permitted (k : Kind) (l : Link) : Bool :=
  match k.onlyLink with
  | none => true
  | some l' => l == l'

/-! ### Enumerated values (R182) -/

/-- R182. -/
def RefState.code : RefState → Byte
  | .free => 0
  | .acquire => 1
  | .locked => 2
  | .holdover => 3

/-- R182. -/
def rateCodeByte : FrameRate → Byte
  | .fps50 => 0
  | .fps5994 => 1

/-- R182. -/
def OutputState.code : OutputState → Byte
  | .dark => 0
  | .fadeIn => 1
  | .onAir => 2
  | .fadeOut => 3

/-- R182. -/
def PageState.code : PageState → Byte
  | .empty => 0
  | .defined => 1
  | .loaded => 2
  | .outgoing => 3

/-- R182. -/
def BankRole.code : BankRole → Byte
  | .unused => 0
  | .live => 1
  | .staging => 2
  | .pending => 3

/-- R182. -/
def TimelineState.code : TimelineState → Byte
  | .stopped => 0
  | .armed => 1
  | .stepping => 2
  | .stopping => 3

/-- R182. -/
def StoreState.code : StoreState → Byte
  | .scanning => 0
  | .valid => 1
  | .absent => 2
  | .unscanned => 3
  | .failed => 4

/-- R182. -/
def CacheMode.code : CacheMode → Byte
  | .normal => 0
  | .bypass => 1

/-- R182. -/
def Severity.code : Severity → Byte
  | .soft => 0
  | .hard => 1

/-- R182. -/
def FaultKind.code : FaultKind → Byte
  | .cacheParity => 0
  | .tileCheck => 1
  | .tileBad => 2
  | .storeFailed => 3
  | .directoryCheck => 4

/-- The severity follows from the kind (Table 9-2). -/
def FaultKind.severity : FaultKind → Severity
  | .cacheParity => .soft
  | .tileCheck => .hard
  | .tileBad => .hard
  | .storeFailed => .hard
  | .directoryCheck => .hard

/-- The kind byte of GRID DEFINE (Table 12-3). -/
def FieldKind.code : FieldKind → Byte
  | .wind => 0
  | .tide => 1

/-- R182. -/
def memoDirByte : MemoDir → Byte
  | .forecastToStudio => 0
  | .studioToForecast => 1

/-- The reason of a TIMELINE_END notice (R77). -/
inductive EndReason where
  | count
  | limit
  deriving DecidableEq, Repr

/-- R182. -/
def EndReason.code : EndReason → Byte
  | .count => 0
  | .limit => 1

/-! ### Notices (Table 12-5) -/

/-- The notices of Table 10-4, with what each carries besides the frame number. -/
inductive Notice where
  | reference (state : RefState)
  | outputState (state : OutputState)
  | timelineEnd (t : Fin 4) (reason : EndReason) (s : Nat)
  | pageReady (page : Fin 16)
  | renderLate (page : Fin 16) (start : FrameNumber)
  | renderRecovered (tag : Option (Fin 16))
  | frameDiscarded (tile : Option Nat) (page : Fin 16) (start : FrameNumber)
  | bankLive (f : Fin 4) (second : Bool)
  | fault (kind : FaultKind) (tile : Option Nat)
  | chartState (state : StoreState)
  | memoWaiting (d : MemoDir) (length : Nat) (countdown : Option Nat)
  | memoExpired (d : MemoDir)
  deriving DecidableEq, Repr

/-- Kind codes of the notices (Table 12-2). -/
def Notice.kind : Notice → BitVec 7
  | .reference _ => 0x60
  | .outputState _ => 0x61
  | .timelineEnd _ _ _ => 0x62
  | .pageReady _ => 0x63
  | .renderLate _ _ => 0x64
  | .renderRecovered _ => 0x65
  | .frameDiscarded _ _ _ => 0x66
  | .bankLive _ _ => 0x68
  | .fault _ _ => 0x69
  | .chartState _ => 0x6A
  | .memoWaiting _ _ _ => 0x6C
  | .memoExpired _ => 0x6D

/-- Short arguments of the notices (Table 12-5). -/
def Notice.arg : Notice → BitVec 4
  | .timelineEnd t _ _ => BitVec.ofNat 4 t.val
  | .bankLive f _ => BitVec.ofNat 4 f.val
  | _ => 0

/-- The payload after the 4-byte frame number (Table 12-5). -/
def Notice.body : Notice → List Byte
  | .reference st => [st.code]
  | .outputState st => [st.code]
  | .timelineEnd _ r s => [r.code, byteOf s]
  | .pageReady p => [byteOf p.val]
  | .renderLate p n => byteOf p.val :: frameBytes n
  | .renderRecovered tag => [pageByte tag]
  | .frameDiscarded t p n => tileBytes t ++ byteOf p.val :: frameBytes n
  | .bankLive _ second => [flagByte second]
  | .fault k t => k.severity.code :: k.code :: tileBytes t
  | .chartState st => [st.code]
  | .memoWaiting d n c => memoDirByte d :: byteOf n :: countdownBytes c
  | .memoExpired d => [memoDirByte d]

/-- A notice as a packet: direction 1, the notice's own kind, tag 0 (R169), the frame number first (Table 12-5). -/
def Notice.packet (n : Notice) (frame : FrameNumber) : TxPacket :=
  ⟨true, n.kind, 0, n.arg, frameBytes frame ++ n.body⟩

end Sys2Proof.Machine
end

