-- ==== Sys2Proof/Machine/Header.lean ====
section
/-! DEFINITION. The header code of R160 and R179: its check positions, decoding with correction, encoding, and the CRC of R163. -/

namespace Sys2Proof.Machine

/-! ### The 32 code positions -/

/-- The code position `p` of a header word: position 0 is the most significant bit of the first byte (R160). -/
def headerBit (w : HeaderWord) (p : Nat) : Bool := w.getMsbD p

/-- The header word with position `p` inverted. -/
def invertPosition (w : HeaderWord) (p : Nat) : HeaderWord := w ^^^ BitVec.twoPow 32 (31 - p)

/-- The syndrome: the exclusive-or of the numbers of all positions 1..31 that hold a 1 (R160). -/
def syndrome (w : HeaderWord) : Nat :=
  (List.range 32).foldl (fun acc p => if headerBit w p then acc ^^^ p else acc) 0

/-- The count of 1s over all 32 positions is odd (R160). -/
def parityOdd (w : HeaderWord) : Bool :=
  (List.range 32).foldl (fun acc p => acc ^^ headerBit w p) false

/-- The number carried by a list of positions, most significant first. -/
def fieldAt (w : HeaderWord) (positions : List Nat) : Nat :=
  positions.foldl (fun acc p => 2 * acc + (if headerBit w p then 1 else 0)) 0

/-- Positions of the kind (R160). -/
def kindPositions : List Nat := [5, 6, 7, 9, 10, 11, 12]

/-- Positions of the tag (R160). -/
def tagPositions : List Nat := [13, 14, 15]

/-- Positions of the length (R160). -/
def lengthPositions : List Nat := [17, 18, 19, 20, 21, 22, 23, 24, 25, 26, 27]

/-- Positions of the short argument (R160). -/
def argPositions : List Nat := [28, 29, 30, 31]

/-- The fields of a header word used as it stands (R160). -/
def headerFields (w : HeaderWord) : Header where
  away := headerBit w 3
  kind := BitVec.ofNat 7 (fieldAt w kindPositions)
  tag := BitVec.ofNat 3 (fieldAt w tagPositions)
  length := BitVec.ofNat 11 (fieldAt w lengthPositions)
  arg := BitVec.ofNat 4 (fieldAt w argPositions)

/-- What the decoding of a header gives (R160). -/
inductive HeaderResult where
  | good (w : HeaderWord)
  | corrected (w : HeaderWord)
  | lost
  deriving DecidableEq, Repr

/-- R160: good, corrected in one position, or lost. -/
def decodeHeader (w : HeaderWord) : HeaderResult :=
  if parityOdd w then .corrected (invertPosition w (syndrome w))
  else if syndrome w = 0 then .good w
  else .lost

/-- The header word that has the given bits of a field at its positions, on top of `w`. -/
def placeField (w : HeaderWord) (positions : List Nat) (value : Nat) : HeaderWord :=
  (positions.zipIdx).foldl
    (fun acc pi => if value.testBit (positions.length - 1 - pi.2) then invertPosition acc pi.1 else acc) w

/-- The header fields at their positions, every check position 0. -/
def placeFields (h : Header) : HeaderWord :=
  let w := if h.away then invertPosition 0 3 else 0
  let w := placeField w kindPositions h.kind.toNat
  let w := placeField w tagPositions h.tag.toNat
  let w := placeField w lengthPositions h.length.toNat
  placeField w argPositions h.arg.toNat

/-- Check positions 1, 2, 4, 8 and 16 set so that the syndrome is 0 (R160). -/
def setChecks (w : HeaderWord) : HeaderWord :=
  [0, 1, 2, 3, 4].foldl
    (fun acc i => if (syndrome w).testBit i then invertPosition acc (2 ^ i) else acc) w

/-- Position 0 set so that the count of 1s is even (R160). -/
def setParity (w : HeaderWord) : HeaderWord := if parityOdd w then invertPosition w 0 else w

/-- The four header bytes, as one word, of the given fields (R160, R179). -/
def encodeHeader (h : Header) : HeaderWord := setParity (setChecks (placeFields h))

/-- The four bytes of a header word in transmission order. -/
def headerBytes (w : HeaderWord) : List Byte :=
  [w.extractLsb' 24 8, w.extractLsb' 16 8, w.extractLsb' 8 8, w.extractLsb' 0 8]

/-! ### The CRC (R163) -/

/-- One bit of the CRC's shift by x^16 + x^12 + x^5 + 1. -/
def crcShift (c : CrcWord) : CrcWord := if c.msb then (c <<< 1) ^^^ 0x1021 else c <<< 1

/-- One byte fed to the CRC, most significant bit first. -/
def crcByte (c : CrcWord) (b : Byte) : CrcWord :=
  (List.range 8).foldl (fun acc _ => crcShift acc) (c ^^^ (b.setWidth 16 <<< 8))

/-- The CRC of a run of bytes: initial value FFFFh, no final inversion (R163). -/
def crc16 (bytes : List Byte) : CrcWord := bytes.foldl crcByte 0xFFFF

/-! ### A packet on the line -/

/-- The start byte (R159). -/
def startByteValue : Byte := 0xC6

/-- The characters of a packet that the block sends: start byte, header with direction 1, and, for a payload that is not empty,
the payload and its CRC (R159, R163, R165; the start byte is DEDUCED, log 28). -/
def TxPacket.wire (p : TxPacket) : List Byte :=
  let h : Header := ⟨true, p.kind, p.tag, BitVec.ofNat 11 p.payload.length, p.arg⟩
  startByteValue :: headerBytes (encodeHeader h) ++
    (if p.payload.isEmpty then [] else p.payload ++ bytes2 (crc16 p.payload).toNat)

end Sys2Proof.Machine
end

