-- ==== Sys2Proof/Machine/Ops.lean ====
section
/-! DEFINITION. The operations that the families share: sparse memory, one write of each block of the state, the clock, the link
ports' queues and command slots, the notices, and the key enable's drop. -/

namespace Sys2Proof.Machine

/-! ### Sparse memory -/

/-- What stands at address `a`: `d` where nothing is listed. -/
def Mem.read {α : Type} (d : α) (m : Mem α) (a : Nat) : α :=
  match m with
  | [] => d
  | (b, x) :: rest => if a = b then x else Mem.read d rest a

/-- The memory with `v` at `a`, in the same form. -/
def Mem.write {α : Type} [DecidableEq α] (d : α) (m : Mem α) (a : Nat) (v : α) : Mem α :=
  match m with
  | [] => if v = d then [] else [(a, v)]
  | (b, x) :: rest =>
    if a < b then (if v = d then (b, x) :: rest else (a, v) :: (b, x) :: rest)
    else if a = b then (if v = d then rest else (a, v) :: rest)
    else (b, x) :: Mem.write d rest a v

/-- The memory with the pairs of a list written in its order. -/
def Mem.writeAll {α : Type} [DecidableEq α] (d : α) (m : Mem α) (cells : List (Nat × α)) : Mem α :=
  cells.foldl (fun acc c => Mem.write d acc c.1 c.2) m

/-- The memory with every address from `start` on, `n` in number, back at `d`. -/
def Mem.clearRange {α : Type} (m : Mem α) (start n : Nat) : Mem α :=
  m.filter (fun c => ! (decide (start ≤ c.1) && decide (c.1 < start + n)))

/-- The canonical form: addresses strictly rising, no listed value equal to what an unlisted address reads as. -/
def Mem.wf {α : Type} [DecidableEq α] (d : α) : Mem α → Bool
  | [] => true
  | [(_, x)] => decide (x ≠ d)
  | (a, x) :: (b, y) :: rest => decide (x ≠ d) && decide (a < b) && Mem.wf d ((b, y) :: rest)

/-- What an unlisted byte of the chart flash reads as: the erased byte FFh (R132, log 13). -/
def flashDefault : Byte := 0xFF

/-- What an unlisted pixel of a frame buffer reads as: index 0 (log 14). -/
def pixelDefault : Nat := 0

/-! ### One write of each block of the state -/

def State.setTiming (s : State) (v : Timing) : State := { s with timing := v }
def State.setOutput (s : State) (v : OutputStage) : State := { s with output := v }
def State.setPages (s : State) (v : PageTable) : State := { s with pages := v }
def State.setStore (s : State) (v : FieldStore) : State := { s with store := v }
def State.setTimelines (s : State) (v : Vector Timeline 4) : State := { s with timelines := v }
def State.setBlinks (s : State) (v : Vector Blink 4) : State := { s with blinks := v }
def State.setRender (s : State) (v : Render) : State := { s with render := v }
def State.setChart (s : State) (v : Chart) : State := { s with chart := v }
def State.setFault (s : State) (v : FaultUnit) : State := { s with fault := v }
def State.setMemo (s : State) (v : MemoUnit) : State := { s with memo := v }
def State.setAhead (s : State) (v : List FramePart) : State := { s with ahead := v }

/-- The port of a link. -/
def State.port (s : State) : Link → Port
  | .forecast => s.forecast
  | .studio => s.studio

/-- The state with the port of one link replaced; the other port is untouched (chapter 10). -/
def State.setPort (s : State) (l : Link) (v : Port) : State :=
  match l with
  | .forecast => { s with forecast := v }
  | .studio => { s with studio := v }

/-- The state with a function applied to the port of one link. -/
def State.mapPort (s : State) (l : Link) (f : Port → Port) : State := s.setPort l (f (s.port l))

/-- The state with timeline `t` replaced. -/
def State.setTimeline (s : State) (t : Fin 4) (v : Timeline) : State :=
  s.setTimelines (s.timelines.set t v)

/-- The state with blink generator `b` replaced. -/
def State.setBlink (s : State) (b : Fin 4) (v : Blink) : State := s.setBlinks (s.blinks.set b v)

/-- The state with field set `f` replaced. -/
def State.setFieldSet (s : State) (f : Fin 4) (v : FieldSet) : State :=
  s.setStore { s.store with sets := s.store.sets.set f v }

/-- The memo in a slot. -/
def State.memoSlot (s : State) : MemoDir → Option Memo
  | .forecastToStudio => s.memo.forecastToStudio
  | .studioToForecast => s.memo.studioToForecast

/-- The state with one memo slot replaced; "the two slots are independent" (R173). -/
def State.setMemoSlot (s : State) (d : MemoDir) (v : Option Memo) : State :=
  match d with
  | .forecastToStudio => s.setMemo { s.memo with forecastToStudio := v }
  | .studioToForecast => s.setMemo { s.memo with studioToForecast := v }

/-- The block has handled this part of the frame start now due (log 6). -/
def State.isAhead (s : State) (h : FramePart) : Bool := s.ahead.contains h

/-- Mark a part of the frame start now due as handled (log 6). -/
def State.markAhead (s : State) (h : FramePart) : State := s.setAhead (h :: s.ahead)

/-! ### The transmit queue (R165-R169) -/

/-- Take the oldest reply, or the oldest notice if the queue holds no reply, out of the queue (R167). -/
def takeNext (queue : List TxPacket) : Option (TxPacket × List TxPacket) :=
  match queue.find? (fun p => !p.isNotice) with
  | some p => some (p, queue.eraseP (fun p => !p.isNotice))
  | none =>
    match queue with
    | [] => none
    | p :: rest => some (p, rest)

/-- Whenever the line is free and the queue is not empty, the transmitter takes its next packet (R167); it sends nothing while the
receive line stays at space (R170). -/
def Port.pump (p : Port) : Port :=
  if p.held then p
  else match p.tx with
    | some _ => p
    | none =>
      match takeNext p.queue with
      | none => p
      | some (next, rest) => { p with tx := some next, queue := rest }

/-- The most packets the transmit queue holds (R167). -/
def queueLimit : Nat := 8

/-- Queue a notice: only if the queue holds fewer than 8 packets; else it is dropped and NOTICE_LOST is added (R168). -/
def Port.notify (n : TxPacket) (p : Port) : Port :=
  if p.queue.length < queueLimit then Port.pump { p with queue := p.queue ++ [n] }
  else { p with summary := { p.summary with noticeLost := true } }

/-- The queue without its newest notice, or none if it holds no notice (R169). -/
def dropNewestNotice (queue : List TxPacket) : Option (List TxPacket) :=
  if queue.any (fun p => p.isNotice) then some ((queue.reverse.eraseP (fun p => p.isNotice)).reverse)
  else none

/-- A reply as a packet: it echoes kind, tag and short argument; its payload begins with the status code and the error summary
(R165, R180). -/
def replyPacket (kind : BitVec 7) (tag : BitVec 3) (arg : BitVec 4) (st : Status) (f : Summary)
    (result : List Byte) : TxPacket :=
  ⟨false, kind, tag, arg, st.code :: f.byte :: result⟩

/-- Queue a reply (R165, R169): it takes the summary, which is then emptied; a full queue loses its newest notice to it, and with
no notice to lose the reply is dropped. -/
def Port.reply (kind : BitVec 7) (tag : BitVec 3) (arg : BitVec 4) (st : Status) (result : List Byte)
    (p : Port) : Port :=
  if p.queue.length < queueLimit then
    Port.pump { p with
      queue := p.queue ++ [replyPacket kind tag arg st p.summary result]
      summary := Summary.empty }
  else
    match dropNewestNotice p.queue with
    | some rest =>
      Port.pump { p with
        queue := rest ++ [replyPacket kind tag arg st { p.summary with noticeLost := true } result]
        summary := Summary.empty }
    | none => { p with summary := { p.summary with replyLost := true } }

/-! ### The command slot (R162, R170) -/

/-- A packet is taken: its record is in the slot (R162). -/
def Port.take (c : CmdRecord) (p : Port) : Port := { p with slot := some c }

/-- The owner has finished the command in the slot: its reply is queued, or suppressed where a line break marked it, and the slot is
free (R162, R170). -/
def Port.finish (st : Status) (result : List Byte) (p : Port) : Port :=
  match p.slot with
  | none => p
  | some c =>
    if p.suppressed then { p with slot := none, suppressed := false }
    else { Port.reply c.kind.code c.tag c.arg st result p with slot := none }

/-- The slot holds a command of this kind. -/
def Port.holds (k : Kind) (p : Port) : Bool :=
  match p.slot with
  | none => false
  | some c => c.kind == k

/-- Add flags to the error summary (R166). -/
def Port.flag (f : Summary → Summary) (p : Port) : Port := { p with summary := f p.summary }

/-- The receiver returns to HUNTING and holds no packet (R158, R159, R170). -/
def Port.hunt (p : Port) : Port := { p with rx := .hunting, packet := none }

/-! ### Notices and replies of the blocks -/

/-- Queue a notice on a link, with the frame number current now (R167). -/
def State.notify (s : State) (l : Link) (n : Notice) : State :=
  s.mapPort l (Port.notify (n.packet s.timing.frame))

/-- Queue several notices on a link, in order. -/
def State.notifyAll (s : State) (l : Link) (ns : List Notice) : State := ns.foldl (fun acc n => acc.notify l n) s

/-- Answer the command in a link's slot (R165). -/
def State.finish (s : State) (l : Link) (st : Status) (result : List Byte) : State :=
  s.mapPort l (Port.finish st result)

/-! ### The clock (R3, R4) -/

/-- The key enable is cleared, and no clearing of it waits (R28). -/
def State.clearKey (s : State) : State := s.setOutput { s.output with keyEnable := false, keyDropAt := none }

/-- The clock comes to instant `t`, or stays where it is past `t` (log 3); a line start at which the key enable was to be cleared
clears it when it is reached (R28). -/
def State.advanceTo (s : State) (t : Nat) : State :=
  let now := max s.timing.now t
  let s := s.setTiming { s.timing with now := now }
  match s.output.keyDropAt with
  | none => s
  | some d => if d ≤ now then s.clearKey else s

/-- A frame start is a line start too: where the key enable was to be cleared at a later one, it is cleared here (R25, R28). -/
def State.clearKeyAtFrame (s : State) : State :=
  match s.output.keyDropAt with
  | none => s
  | some _ => s.clearKey

/-- The nudge moves the scheduled frame start when that lies more than 16 pixel periods after the NUDGE was taken, after the frame
start at which an offset then pending took effect, and after the instant at which it was scheduled (R15). -/
def PendingNudge.qualifies (n : PendingNudge) (scheduled scheduledAt : Nat) : Bool :=
  !n.behindOffset && decide (n.takenAt + 16 < scheduled) &&
    (match n.offsetAt with
      | none => true
      | some e => decide (e + 16 < scheduled)) &&
    decide (scheduledAt + 16 < scheduled)

/-- The nudge that applies to the scheduled frame start, 0 for none (R15). -/
def Timing.nudgeNow (t : Timing) : Int :=
  match t.nudge with
  | none => 0
  | some n => if n.qualifies t.scheduled t.scheduledAt then n.amount else 0

/-- The instant at which the current frame is to end: the scheduled frame start, moved by a nudge that applies to it (Table 1-1,
R15). -/
def Timing.frameInstant (t : Timing) : Nat := ((t.scheduled : Int) + t.nudgeNow).toNat

/-- The first line start of the raster in progress after the present instant. -/
def Timing.lineAfter (t : Timing) : Nat := t.began + ((t.now - t.began) / t.rate.width + 1) * t.rate.width

/-- The line start at which a waiting PANIC acts: the one found when it was taken, or the frame start now scheduled if that comes first
(R25, log 30). -/
def Timing.panicDue (t : Timing) : Nat := min (t.panicAt.getD t.lineAfter) t.frameInstant

/-- That line start is the frame start now scheduled (R25). -/
def Timing.panicAtFrame (t : Timing) : Bool := decide (t.panicDue = t.frameInstant)

/-! ### Pages and the key enable (R28, R33) -/

/-- The page is LOADED or OUTGOING. -/
def PageTable.keyed (t : PageTable) (p : Fin 16) : Bool :=
  t.loaded == some p || t.outgoing == some p

/-- The state of a page (R33). -/
def PageTable.pageState (t : PageTable) (p : Fin 16) : PageState :=
  if t.loaded = some p then .loaded
  else if t.outgoing = some p then .outgoing
  else match t.pages[p] with
    | none => .empty
    | some _ => .defined

/-- The front buffer (R109). -/
def Render.front (r : Render) : Option FrameBuffer :=
  if r.bufferA.role = .front then some r.bufferA
  else if r.bufferB.role = .front then some r.bufferB
  else none

/-- The page tag of the front buffer, absent when there is none (R109). -/
def Render.frontTag (r : Render) : Option (Fin 16) :=
  match r.front with
  | none => none
  | some b => b.tag

/-- The front buffer's page tag names the LOADED or the OUTGOING page (R28). -/
def State.frontKeyed (s : State) : Bool :=
  match s.render.frontTag with
  | none => false
  | some p => s.pages.keyed p

/-- The page named by the front buffer's tag has ceased to be LOADED or OUTGOING: the key enable is cleared from the next line start
of the raster in progress, or from a frame start that is entered before it (R28, log 26). -/
def State.dropKey (s : State) : State :=
  if s.output.keyEnable && !s.frontKeyed then
    match s.output.keyDropAt with
    | some _ => s
    | none => s.setOutput { s.output with keyDropAt := some s.timing.lineAfter }
  else s

/-- An OUTGOING page returns to DEFINED (R47). -/
def State.endOutgoing (s : State) : State := s.setPages { s.pages with outgoing := none }

/-! ### Field sets -/

/-- The bank of a field set by its number. -/
def FieldSet.bank (f : FieldSet) (second : Bool) : Bank := if second then f.bank1 else f.bank0

/-- The number of the bank that has a role, if one has it (R51). -/
def FieldSet.findRole (f : FieldSet) (r : BankRole) : Option Bool :=
  if f.bank0.role = r then some false else if f.bank1.role = r then some true else none

/-- The field set with a bank replaced. -/
def FieldSet.setBank (f : FieldSet) (second : Bool) (v : Bank) : FieldSet :=
  if second then { f with bank1 := v } else { f with bank0 := v }

/-- The field set that a data layer names (Table 3-2). -/
def Layer.fieldSet : Layer → Option (Fin 4)
  | .coast _ => none
  | .tideShade c => some c.fieldSet
  | .streamArrows c => some c.fieldSet
  | .windBarbs c => some c.fieldSet
  | .symbols _ => none

/-- The timeline that a data layer names, absent where it has a fixed slot (R35). -/
def Layer.timeline : Layer → Option (Fin 4)
  | .coast _ => none
  | .tideShade c => match c.source with | .timeline t => some t | .fixed _ => none
  | .streamArrows c => match c.source with | .timeline t => some t | .fixed _ => none
  | .windBarbs c => match c.source with | .timeline t => some t | .fixed _ => none
  | .symbols _ => none

/-- A layer of the page names field set `f` (R53). -/
def PageRecord.names (p : PageRecord) (f : Fin 4) : Bool :=
  p.layers.any (fun l => l.fieldSet == some f)

/-- The record of the LOADED page (R49). -/
def PageTable.loadedRecord (t : PageTable) : Option PageRecord :=
  match t.loaded with
  | none => none
  | some p => t.pages[p]

/-- The record of the OUTGOING page (R49). -/
def PageTable.outgoingRecord (t : PageTable) : Option PageRecord :=
  match t.outgoing with
  | none => none
  | some p => t.pages[p]

end Sys2Proof.Machine
end

