-- ==== Sys2Proof/Machine/Operands.lean ====
section
/-! DEFINITION. Payload layouts (R181, R185, R186): reading fields and records from received payloads, and writing stored page
records back in the same layout. -/

namespace Sys2Proof.Machine

/-! ### Fields -/

/-- The number that a run of bytes carries, most significant byte first. -/
def beNat (bytes : List Byte) : Nat := bytes.foldl (fun acc b => 256 * acc + b.toNat) 0

/-- The bytes of a field of `n` bytes at `off`. -/
def fieldBytes (bytes : List Byte) (off n : Nat) : List Byte := (bytes.drop off).take n

/-- An unsigned field of `n` bytes at `off`. -/
def fieldNat (bytes : List Byte) (off n : Nat) : Nat := beNat (fieldBytes bytes off n)

/-- A signed field of two bytes at `off`, two's complement (chapter 12). -/
def fieldInt (bytes : List Byte) (off : Nat) : Int := (BitVec.ofNat 16 (fieldNat bytes off 2)).toInt

/-- The byte at `off`. -/
def fieldByte (bytes : List Byte) (off : Nat) : Byte := bytes.getD off 0

/-- Bit 0 of the flag byte at `off`; the other bits are ignored (R185). -/
def fieldFlag (bytes : List Byte) (off : Nat) : Bool := (fieldByte bytes off).getLsbD 0

/-- clamp(x, lo, hi) of a count (00_scope.md). -/
def clampNat (x lo hi : Nat) : Nat := max lo (min x hi)

/-- clamp(x, lo, hi) of a signed value (00_scope.md). -/
def clampInt (x lo hi : Int) : Int := max lo (min x hi)

/-- An index below `n`, or none outside its set (R2). -/
def indexOf (n x : Nat) : Option (Fin n) := if h : x < n then some ⟨x, h⟩ else none

/-- A one-byte optional index: FFh is absent, a member of the set is present, and anything else is refused (R186). -/
def optIndexOf (n : Nat) (b : Byte) : Option (Option (Fin n)) :=
  if b = absentByte then some none
  else match indexOf n b.toNat with
    | some i => some (some i)
    | none => none

/-- A colour index, 0..31. -/
def colourOf (b : Byte) : Option Nat := if b.toNat < 32 then some b.toNat else none

/-- `count` records of `n` bytes each. -/
def records (n : Nat) : Nat → List Byte → List (List Byte)
  | 0, _ => []
  | count + 1, bytes => bytes.take n :: records n count (bytes.drop n)

/-- Every record parsed, or none if one is refused. -/
def parseAll {α : Type} (parse : List Byte → Option α) : List (List Byte) → Option (List α)
  | [] => some []
  | r :: rest =>
    match parse r, parseAll parse rest with
    | some x, some xs => some (x :: xs)
    | _, _ => none

/-! ### Layer records (Table 12-4, R36) -/

/-- The slot source of a data layer: the timeline byte, and the fixed slot byte where the timeline is absent (R36, R186). -/
def parseSource (bytes : List Byte) : Option SlotSource :=
  match optIndexOf 4 (fieldByte bytes 2) with
  | none => none
  | some (some t) => some (.timeline t)
  | some none =>
    if (fieldByte bytes 3).toNat ≤ 24 then some (.fixed (fieldByte bytes 3).toNat) else none

/-- A COAST record, and whether its line width was clamped (R36). -/
def parseCoast (bytes : List Byte) : Option (Layer × Bool) :=
  match colourOf (fieldByte bytes 4), colourOf (fieldByte bytes 5) with
  | some land, some line =>
    let width := fieldNat bytes 6 1
    some (.coast ⟨land, line, clampNat width 1 4⟩, clampNat width 1 4 != width)
  | _, _ => none

/-- A TIDE_SHADE record, and whether its base or step was clamped (R36). -/
def parseShade (bytes : List Byte) : Option (Layer × Bool) :=
  match indexOf 4 (fieldNat bytes 1 1), parseSource bytes, colourOf (fieldByte bytes 4) with
  | some f, some src, some first =>
    let base := fieldInt bytes 7
    let step := fieldNat bytes 9 2
    some (.tideShade ⟨f, src, clampInt base (-1000) 2000, clampNat step 1 500, first⟩,
      clampInt base (-1000) 2000 != base || clampNat step 1 500 != step)
  | _, _, _ => none

/-- A STREAM_ARROWS record, and whether its gain or stride was clamped (R36). -/
def parseArrows (bytes : List Byte) : Option (Layer × Bool) :=
  match indexOf 4 (fieldNat bytes 1 1), parseSource bytes, colourOf (fieldByte bytes 4),
    colourOf (fieldByte bytes 5), optIndexOf 4 (fieldByte bytes 15) with
  | some f, some src, some arrow, some slack, some blink =>
    let gain := fieldNat bytes 11 1
    let stride := fieldNat bytes 13 1
    some (.streamArrows ⟨f, src, arrow, slack, clampNat gain 1 255, fieldNat bytes 12 1,
        clampNat stride 1 8, fieldFlag bytes 14, blink⟩,
      clampNat gain 1 255 != gain || clampNat stride 1 8 != stride)
  | _, _, _, _, _ => none

/-- A WIND_BARBS record, and whether its stride was clamped (R36). -/
def parseBarbs (bytes : List Byte) : Option (Layer × Bool) :=
  match indexOf 4 (fieldNat bytes 1 1), parseSource bytes, colourOf (fieldByte bytes 4),
    optIndexOf 4 (fieldByte bytes 15) with
  | some f, some src, some barb, some blink =>
    let stride := fieldNat bytes 13 1
    some (.windBarbs ⟨f, src, barb, clampNat stride 1 8, fieldFlag bytes 14, blink⟩,
      clampNat stride 1 8 != stride)
  | _, _, _, _ => none

/-- A SYMBOLS record (R36). -/
def parseSymbols (bytes : List Byte) : Option (Layer × Bool) :=
  match indexOf 8 (fieldNat bytes 16 1) with
  | some l => some (.symbols l, false)
  | none => none

/-- A layer record by its kind byte (Table 12-4); "a kind that is none of the five" is refused (R36). -/
def parseLayer (bytes : List Byte) : Option (Layer × Bool) :=
  match fieldNat bytes 0 1 with
  | 0 => parseCoast bytes
  | 1 => parseShade bytes
  | 2 => parseArrows bytes
  | 3 => parseBarbs bytes
  | 4 => parseSymbols bytes
  | _ => none

/-- The bytes of a slot source: timeline byte and fixed slot byte, the absent one FFh (R186). -/
def sourceBytes : SlotSource → List Byte
  | .timeline t => [byteOf t.val, absentByte]
  | .fixed n => [absentByte, byteOf n]

/-- An optional blink generator byte (R186). -/
def blinkByte : Option (Fin 4) → Byte
  | none => absentByte
  | some b => byteOf b.val

/-- A stored layer record in the PAGE DEFINE layout, every absent field FFh (R186). -/
def layerBytes : Layer → List Byte
  | .coast c =>
    [0, absentByte, absentByte, absentByte, byteOf c.land, byteOf c.line, byteOf c.width] ++
      List.replicate 10 absentByte
  | .tideShade c =>
    [1, byteOf c.fieldSet.val] ++ sourceBytes c.source ++ [byteOf c.first, absentByte, absentByte] ++
      signed2 c.base ++ bytes2 c.step ++ List.replicate 6 absentByte
  | .streamArrows c =>
    [2, byteOf c.fieldSet.val] ++ sourceBytes c.source ++ [byteOf c.arrow, byteOf c.slack] ++
      List.replicate 5 absentByte ++
      [byteOf c.gain, byteOf c.threshold, byteOf c.stride, flagByte c.suppress, blinkByte c.blink,
        absentByte]
  | .windBarbs c =>
    [3, byteOf c.fieldSet.val] ++ sourceBytes c.source ++ [byteOf c.barb] ++
      List.replicate 8 absentByte ++
      [byteOf c.stride, flagByte c.suppress, blinkByte c.blink, absentByte]
  | .symbols l => [4] ++ List.replicate 15 absentByte ++ [byteOf l.val]

/-! ### The page part (Table 12-3, after it) -/

/-- The two windows of the page part. -/
def parseViewport (bytes : List Byte) : Viewport where
  cx0 := fieldNat bytes 0 2
  cy0 := fieldNat bytes 2 2
  cw := fieldNat bytes 4 3
  ch := fieldNat bytes 7 3
  sx0 := fieldNat bytes 10 2
  sy0 := fieldNat bytes 12 2
  sw := fieldNat bytes 14 2
  sh := fieldNat bytes 16 2

/-- The page part and layer records of a stored page, in the PAGE DEFINE layout (R182). -/
def pageBytes (p : PageRecord) : List Byte :=
  bytes2 p.view.cx0 ++ bytes2 p.view.cy0 ++ bytes3 p.view.cw ++ bytes3 p.view.ch ++
    bytes2 p.view.sx0 ++ bytes2 p.view.sy0 ++ bytes2 p.view.sw ++ bytes2 p.view.sh ++
    [byteOf p.sea, byteOf p.layers.length] ++ p.layers.flatMap layerBytes

/-! ### Placement records (after Table 12-3, R63) -/

/-- The figure field: 8000h is absent, any other value is present and clamped to -999..9999 (R186). -/
def parseFigure (bytes : List Byte) (off : Nat) : Option Int × Bool :=
  if fieldNat bytes off 2 = 0x8000 then (none, false)
  else
    let v := fieldInt bytes off
    (some (clampInt v (-999) 9999), clampInt v (-999) 9999 != v)

/-- A placement record and whether its figure was clamped, or none if it is refused (R63). -/
def parsePlacement (bytes : List Byte) : Option (Placement × Bool) :=
  match indexOf 64 (fieldNat bytes 0 1), colourOf (fieldByte bytes 5), colourOf (fieldByte bytes 6),
    optIndexOf 4 (fieldByte bytes 7) with
  | some sym, some body, some outline, some blink =>
    let fig := parseFigure bytes 8
    some (⟨sym, fieldNat bytes 1 2, fieldNat bytes 3 2, body, outline, blink, fig.1⟩, fig.2)
  | _, _, _, _ => none

/-! ### Bytes of transfers -/

/-- Bytes combined one by one with a second list, which counts as zero where it is shorter. -/
def combine (f : Byte → Byte → Byte) : List Byte → List Byte → List Byte
  | [], _ => []
  | b :: rest, [] => f b 0 :: combine f rest []
  | b :: rest, n :: ns => f b n :: combine f rest ns

end Sys2Proof.Machine
end

