-- ==== Sys2Proof/Machine/Ports.lean ====
section
/-! DEFINITION. The link ports: command handling of a complete packet (R162-R164), and the rows that act on a port alone
(R158-R161, R167, R170). -/

namespace Sys2Proof.Machine

/-! ### Collecting a packet (R159) -/

/-- The header fields of a packet of kind code `code` (R160). -/
def packetHeader (code : BitVec 7) (p : Packet) : Header :=
  ⟨false, code, p.tag, BitVec.ofNat 11 p.payload.length, p.arg⟩

/-- What follows the header on the line: nothing for an empty payload, else the payload and its two CRC bytes (R159). -/
def packetBody (p : Packet) : List Byte := if p.payload.isEmpty then [] else p.payload ++ bytes2 p.crc.toNat

/-- The packet being received once what is left of packet `p` has come: the rest of it after a header that has been received, its
header and the rest in HEADER, and the whole of it where the receiver hunts and holds nothing (R159, log 5). -/
def Port.collect (code : BitVec 7) (p : Packet) (r : Port) : Option RxPacket :=
  match r.rx, r.packet with
  | .payload, none => none
  | .payload, some q => some { q with bytes := q.bytes ++ packetBody p }
  | .hunting, some q => some { q with bytes := q.bytes ++ packetBody p }
  | .hunting, none => some ⟨headerBytes (encodeHeader (packetHeader code p)) ++ packetBody p, some (packetHeader code p)⟩
  | .header, _ => some ⟨headerBytes (encodeHeader (packetHeader code p)) ++ packetBody p, some (packetHeader code p)⟩

/-- Every byte that the header's length calls for has come: four header bytes, and with a length above 0 that many payload bytes and
two CRC bytes (R159); a length above 1024 leads to no packet (R161). -/
def RxPacket.complete (q : RxPacket) : Bool :=
  match q.header with
  | none => false
  | some h =>
    decide (h.length.toNat ≤ 1024) && q.bytes.length == 4 + (if h.length = 0 then 0 else h.length.toNat + 2)

/-- Packet `p` of kind code `code` is complete at its last byte: the header that the receiver holds is its own, and every byte that its
length calls for has come (R159).
While the receive line stays at space after a break the receiver takes no characters, so no packet completes (R170, log 29). -/
def Port.completes (code : BitVec 7) (p : Packet) (r : Port) : Bool :=
  !r.held &&
    (match r.collect code p with
      | none => false
      | some q => q.complete && q.header == some (packetHeader code p))

/-! ### Command handling -/

/-- The payload lengths that a kind permits (Table 12-2, R184).
A count is read from its place in the payload as received; GRID ROWS takes its length from the field set as it stands. -/
def lengthPermitted (k : Kind) (p : Packet) (s : State) : Bool :=
  let n := p.payload.length
  match k with
  | .status | .faultRead | .cacheRestore | .memoTake | .memoWithdraw | .gridPublish | .gridStatus
  | .chartRescan | .pageDelete | .pageRead | .load | .unload | .panic | .timelineStop
  | .timelineClear => n == 0
  | .echo => decide (n ≤ 1022)
  | .memoPost => decide (3 ≤ n) && decide (n ≤ 66)
  | .gridDefine => n == 10
  | .gridRows =>
    match indexOf 4 p.arg.toNat with
    | none => decide (2 ≤ n) && decide (n ≤ 1024)
    | some f =>
      match s.store.sets[f].geometry with
      | none => decide (2 ≤ n) && decide (n ≤ 1024)
      | some g =>
        match g.kind with
        | .wind => n == 2 + 4 * g.columns
        | .tide => n == 2 + 6 * g.columns
  | .listWrite => decide (1 ≤ n) && n == 1 + 10 * fieldNat p.payload 0 1
  | .symbolWrite => n == 257
  | .flashRead => n == 6
  | .flashProgram => n == 260
  | .flashErase => n == 2
  | .pageDefine => decide (20 ≤ n) && n == 20 + 17 * fieldNat p.payload 19 1
  | .take | .clear => n == 2
  | .paletteWrite => decide (2 ≤ n) && n == 2 + 4 * fieldNat p.payload 1 1
  | .timelineSet => n == 6
  | .timelineSteps | .timelineJump => n == 1
  | .timelineRun => decide (n ≤ 1)
  | .blinkSet => n == 3
  | .offset => n == 4
  | .nudge => n == 2

/-- The payload check: a packet of length 0 carries no CRC and cannot fail (R162, R163). -/
def crcHolds (p : Packet) : Bool := p.payload.isEmpty || crc16 p.payload == p.crc

/-- The port's checks of a packet whose kind is a command kind, in order: ROLE, LENGTH, DATA_ERROR; none for a packet that is taken
(R162). -/
def portRefusal (k : Kind) (p : Packet) (s : State) : Option Status :=
  if !k.permitted p.link then some .role
  else if !lengthPermitted k p s then some .length
  else if !crcHolds p then some .dataError
  else none

/-- The command record of a packet that is taken (R162). -/
def cmdRecord (k : Kind) (p : Packet) : CmdRecord := ⟨k, p.tag, p.arg, p.payload⟩

/-- A complete packet has arrived: the clock stands at its last byte and the receiver returns to HUNTING (R159). -/
def State.arrive (s : State) (p : Packet) : State := (s.advanceTo p.time).mapPort p.link Port.hunt

/-- Queue a refusal of the port, or BUSY: status and summary alone (R164, R165). -/
def State.refuse (s : State) (code : BitVec 7) (p : Packet) (st : Status) : State :=
  s.mapPort p.link (Port.reply code p.tag p.arg st [])

/-- The state in which the owner acts on a packet that is taken: its record is in the slot (R162). -/
def State.taken (k : Kind) (p : Packet) (s : State) : State :=
  (s.arrive p).mapPort p.link (Port.take (cmdRecord k p))

/-- The packet is taken: it is complete, the slot is free, and no check of the port refuses it (R159, R162). -/
def takes (k : Kind) (p : Packet) (s : State) : Bool :=
  (s.port p.link).completes k.code p && (s.port p.link).slot.isNone && (portRefusal k p s).isNone

/-- Command handling of a packet of a command kind, once it is complete (R159, R162, R164): BUSY while the slot is busy, else the
port's checks, else the packet is taken and its owner acts. -/
def serve (k : Kind) (p : Packet) (owner : Packet → State → State) (s : State) : State :=
  if (s.port p.link).completes k.code p then
    if (s.port p.link).slot.isSome then (s.arrive p).refuse k.code p .busy
    else match portRefusal k p s with
      | some st => (s.arrive p).refuse k.code p st
      | none => owner p (s.taken k p)
  else s

/-- UNKNOWN_PACKET: BUSY while the slot is busy, else UNKNOWN (R162, R164).
A code that is a command kind's is no unknown packet, and the row changes nothing (log 4). -/
def execUnknownPacket (kind : BitVec 7) (p : Packet) (s : State) : Host.Outcome State Fault Refusal :=
  .next <|
    if (kindOfCode kind).isSome || !(s.port p.link).completes kind p then s
    else
      let s := s.arrive p
      if (s.port p.link).slot.isSome then s.refuse kind p .busy else s.refuse kind p .unknown

/-! ### The receiver (R158-R161) -/

/-- START_BYTE: in HUNTING the receiver clears the packet being received and moves to HEADER; in HEADER and PAYLOAD the byte is data,
whose arrival is part of the row that completes the header or the packet (R159, log 5). -/
def execStartByte (l : Link) (s : State) : Host.Outcome State Fault Refusal :=
  .next <| s.mapPort l fun p =>
    if p.held then p
    else match p.rx with
      | .hunting => { p with rx := .header, packet := some ⟨[], none⟩ }
      | .header => p
      | .payload => p

/-- R161 on a header that is good or corrected: dropped with HEADER_LOST for a length above 1024, dropped with DIRECTION for a
direction of 1, else used; with length 0 the packet is complete and the receiver hunts, else it collects the payload (R159). -/
def Port.useHeader (w : HeaderWord) (p : Port) : Port :=
  let h := headerFields w
  if 1024 < h.length.toNat then Port.flag (fun f => { f with headerLost := true }) (Port.hunt p)
  else if h.away then Port.flag (fun f => { f with direction := true }) (Port.hunt p)
  else { p with
    rx := if h.length = 0 then .hunting else .payload
    packet := some ⟨headerBytes w, some h⟩ }

/-- HEADER_RECEIVED: the fourth header byte has come; the header is decoded, corrected or dropped (R160), and checked (R161). -/
def execHeaderReceived (l : Link) (header : HeaderWord) (s : State) : Host.Outcome State Fault Refusal :=
  .next <| s.mapPort l fun p =>
    if p.held then p
    else match p.rx with
      | .hunting => p
      | .payload => p
      | .header =>
        match decodeHeader header with
        | .good w => Port.useHeader w p
        | .corrected w => Port.useHeader w (Port.flag (fun f => { f with headerCorrected := true }) p)
        | .lost => Port.flag (fun f => { f with headerLost := true }) (Port.hunt p)

/-- FRAMING_ERROR: FRAMING is added, and the receiver returns to HUNTING from whatever state it was in (R158); while the line stays
at space after a break no flag is added (R170). -/
def execFramingError (l : Link) (s : State) : Host.Outcome State Fault Refusal :=
  .next <| s.mapPort l fun p =>
    if p.held then p else Port.flag (fun f => { f with framing := true }) (Port.hunt p)

/-- RECEIVE_TIMEOUT: more than 1 ms between two bytes of a packet; the packet is abandoned and TIMEOUT is added; no time limit
applies in HUNTING (R159). -/
def execReceiveTimeout (l : Link) (s : State) : Host.Outcome State Fault Refusal :=
  .next <| s.mapPort l fun p =>
    match p.rx with
    | .hunting => p
    | .header => Port.flag (fun f => { f with timeout := true }) (Port.hunt p)
    | .payload => Port.flag (fun f => { f with timeout := true }) (Port.hunt p)

/-! ### The transmitter and the line break (R167, R170) -/

/-- TRANSMIT_END: the last character of the packet in transmission has gone, and the transmitter takes the next packet (R167). -/
def execTransmitEnd (l : Link) (s : State) : Host.Outcome State Fault Refusal :=
  .next <| s.mapPort l fun p =>
    match p.tx with
    | none => p
    | some _ => Port.pump { p with tx := none }

/-- LINE_BREAK: at the instant the break is recognised (R170).
A break that goes on is one break, so nothing more happens while the line stays at space. -/
def execLineBreak (l : Link) (s : State) : Host.Outcome State Fault Refusal :=
  .next <| s.mapPort l fun p =>
    if p.held then p
    else { Port.hunt p with
      held := true
      queue := []
      tx := none
      summary := Summary.empty
      suppressed := p.suppressed || p.slot.isSome }

/-- LINE_BREAK_END: the line is back at mark, the receiver hunts again and the transmitter resumes (R170). -/
def execLineBreakEnd (l : Link) (s : State) : Host.Outcome State Fault Refusal :=
  .next <| s.mapPort l fun p => if p.held then Port.pump (Port.hunt { p with held := false }) else p

end Sys2Proof.Machine
end

