-- ==== Sys2Proof/Machine/Timing.lean ====
section
/-! DEFINITION. The timing generator (chapter 1): reference pulses, decision instants, holdover, nudge and offset. -/

namespace Sys2Proof.Machine

/-! ### The reference schedule (R7, R8) -/

/-- What the pixel clock's frequency is, as the reference state sets it (R3): nominal, steered to follow the reference, or the last
locked frequency. -/
inductive PixelClock where
  | nominal
  | steered
  | lastLocked
  deriving DecidableEq, Repr

/-- R3. -/
def RefState.clock : RefState → PixelClock
  | .free => .nominal
  | .acquire => .steered
  | .locked => .steered
  | .holdover => .lastLocked

/-- The raster total of the selected rate (Table 1-2). -/
def Timing.total (t : Timing) : Nat := t.rate.total

/-- A pulse at `p` is in window of the expected instant `e`: no earlier than two pixel periods before it and no later than two after
it (R7). -/
def inWindowOf (e p : Nat) : Bool := decide (e ≤ p + 2) && decide (p ≤ e + 2)

/-- The expected instant moves on by total and the pulse-seen mark is cleared (R7). -/
def Timing.moveOn (t : Timing) : Timing :=
  { t with expected := t.expected.map (· + t.total), pulseSeen := false }

/-- A realignment on a pulse at `p` (R8): the expected instant becomes p + total, the mark is cleared, and the frame start is
scheduled at p + offset; if that is the frame start that began the frame in progress, the next follows at it + total.
A pulse in the very pixel period in which the reset ended is handled the same way, though frame 0 has no frame start (log 32). -/
def Timing.realign (t : Timing) (p : Nat) : Timing :=
  { t with
    expected := some (p + t.total)
    pulseSeen := false
    scheduled := if p + t.offset = t.began then t.began + t.total else p + t.offset
    scheduledAt := p }

/-- The move to FREE discards the expected instant and clears the mark and the counts (R9). -/
def Timing.goFree (t : Timing) : Timing :=
  { t with
    refState := .free
    expected := none
    pulseSeen := false
    inWindow := 0
    mismatch := 0
    holdover := 0 }

/-- The move to ACQUIRE with a realignment on the pulse at `p`, every count at 0 (R9, R11, R12). -/
def Timing.goAcquire (t : Timing) (p : Nat) : Timing :=
  { t.realign p with refState := .acquire, inWindow := 0, mismatch := 0, holdover := 0 }

/-- A pulse at `p`, in window or not, under the present reference state (R9-R12, Table 1-3). -/
def Timing.pulse (t : Timing) (p : Nat) : Timing :=
  match t.expected with
  | none => t.goAcquire p
  | some e =>
    match t.refState, inWindowOf e p with
    | .free, _ => t.goAcquire p
    | .acquire, true =>
      if t.inWindow + 1 < 4 then { t.moveOn with inWindow := t.inWindow + 1 }
      else { t.moveOn with refState := .locked, inWindow := 0, mismatch := 0 }
    | .acquire, false => { t.realign p with inWindow := 0 }
    | .locked, true => { t.moveOn with mismatch := 0 }
    | .locked, false =>
      if t.mismatch + 1 < 2 then { t with mismatch := t.mismatch + 1, pulseSeen := true }
      else t.goAcquire p
    | .holdover, true => { t.moveOn with refState := .locked, holdover := 0, mismatch := 0 }
    | .holdover, false => t.goAcquire p

/-- The decision instant of the expected instant, with no in-window pulse taken since (R7, R10-R12).
The mark set cannot arise in ACQUIRE (R10); the state is then kept, as in LOCKED (log 24). -/
def Timing.decision (t : Timing) : Timing :=
  match t.refState, t.pulseSeen with
  | .free, _ => t
  | .acquire, false => t.goFree
  | .acquire, true => t.moveOn
  | .locked, false => { t.moveOn with refState := .holdover, holdover := 0, mismatch := 0 }
  | .locked, true => t.moveOn
  | .holdover, _ => t.moveOn

/-- The notices of a change of reference state: one on each link (R13). -/
def State.notifyReference (s : State) (before : RefState) : State :=
  if s.timing.refState = before then s
  else (s.notify .forecast (.reference s.timing.refState)).notify .studio
    (.reference s.timing.refState)

/-- REFERENCE_PULSE: a pulse arrives at `time`, or now where the clock already stands past it (R7, log 3). -/
def execReferencePulse (time : Nat) (s : State) : Host.Outcome State Fault Refusal :=
  .next <|
    let s := s.advanceTo time
    (s.setTiming (s.timing.pulse s.timing.now)).notifyReference s.timing.refState

/-- DECISION_INSTANT: the expected instant plus half a frame, with no in-window pulse taken (R7); in FREE there is none (R9). -/
def execDecisionInstant (s : State) : Host.Outcome State Fault Refusal :=
  .next <|
    match s.timing.expected with
    | none => s
    | some e =>
      let s := s.advanceTo (e + s.timing.rate.half)
      (s.setTiming s.timing.decision).notifyReference s.timing.refState

/-! ### What a frame start does to the generator (R5, R12, R15, R17) -/

/-- The holdover count that returns the generator to FREE (R12). -/
def holdoverLimit : Nat := 250

/-- In HOLDOVER a frame start advances the holdover count; at 250 the state becomes FREE (R12). -/
def Timing.holdoverFrame (t : Timing) : Timing :=
  match t.refState with
  | .free => t
  | .acquire => t
  | .locked => t
  | .holdover =>
    if t.holdover + 1 < holdoverLimit then { t with holdover := t.holdover + 1 } else t.goFree

/-- The holdover count reaches 250 at the frame start now due (R12). -/
def Timing.holdoverEnds (t : Timing) : Bool :=
  t.refState == .holdover && decide (holdoverLimit ≤ t.holdover + 1)

/-- The nudge that applies to the scheduled frame start is applied: the frame start is moved, the offset becomes (offset + n) mod
total, and no nudge is pending (R15). -/
def Timing.applyNudge (t : Timing) : Timing :=
  match t.nudge with
  | none => t
  | some n =>
    if n.qualifies t.scheduled t.scheduledAt then
      { t with
        scheduled := t.frameInstant
        offset := (((t.offset : Int) + n.amount) % (t.total : Int)).toNat
        nudge := none }
    else t

/-- The length of the frame that begins where the offset changes from `o` to `v`: (v - o) mod total, or total if they are equal
(R17). -/
def offsetFrameLength (total o v : Nat) : Nat :=
  if v = o then total else (((v : Int) - (o : Int)) % (total : Int)).toNat

/-- The pending offset takes effect at the scheduled frame start (R17); a nudge taken while it was pending waits for a later frame
start (R15). -/
def Timing.applyOffset (t : Timing) : Timing :=
  match t.pendingOffset with
  | none => t
  | some v =>
    { t with
      offset := v
      pendingOffset := none
      nudge := t.nudge.map (fun n =>
        if n.behindOffset then { n with behindOffset := false, offsetAt := some t.scheduled } else n) }

/-- The length of the frame that begins at the scheduled frame start: total, or what an offset change makes it (R5, R17). -/
def Timing.nextLength (t : Timing) : Nat :=
  match t.pendingOffset with
  | none => t.total
  | some v => offsetFrameLength t.total t.offset v

/-- The scheduled frame start begins a frame: the number advances, a pending offset takes effect, and the next frame start is
scheduled (R5, R17); a PANIC that waits for a later line start acts at this one (R25). -/
def Timing.beginFrame (t : Timing) : Timing :=
  { t.applyOffset with
    frame := t.frame + 1
    began := t.scheduled
    scheduled := t.scheduled + t.nextLength
    scheduledAt := t.scheduled
    panicAt := t.panicAt.map (min · t.scheduled) }

/-- The generator's own step at a frame start: a nudge that applies moves it, and it begins a frame (R5, R15, R17). -/
def Timing.frameStart (t : Timing) : Timing := t.applyNudge.beginFrame

/-- The frame start now due is entered: the generator makes its own step at that instant, once, ahead of whatever else of the frame
start is handled, so that its number is current from then on (R1, R5, log 6); a clearing of the key enable that waits for a line
start finds one in it (R28). -/
def State.enterFrame (s : State) : State :=
  if s.isAhead .generator then s
  else
    let s := s.advanceTo s.timing.frameInstant
    ((s.setTiming s.timing.frameStart).clearKeyAtFrame).markAhead .generator

/-- HOLDOVER_EXPIRY: the generator's holdover count handles the frame start now due ahead of the rest, and it reaches 250 (R12,
log 6). -/
def execHoldoverExpiry (s : State) : Host.Outcome State Fault Refusal :=
  .next <|
    if s.timing.holdoverEnds && !s.isAhead .reference then
      let s := s.enterFrame
      ((s.setTiming s.timing.goFree).markAhead .reference).notifyReference s.timing.refState
    else s

/-- NUDGE_APPLY: the frame start that the pending nudge moves is entered, and the nudge applied (R15, log 6). -/
def execNudgeApply (s : State) : Host.Outcome State Fault Refusal :=
  .next <|
    match s.timing.nudge with
    | none => s
    | some n => if n.qualifies s.timing.scheduled s.timing.scheduledAt then s.enterFrame else s

/-- OFFSET_TAKES_EFFECT: the frame start now due is entered, and the pending offset takes effect (R17, log 6). -/
def execOffsetTakesEffect (s : State) : Host.Outcome State Fault Refusal :=
  .next <|
    match s.timing.pendingOffset with
    | none => s
    | some _ => s.enterFrame

/-! ### OFFSET and NUDGE (R14, R16) -/

/-- NUDGE in its slot (R14): refused while a nudge is pending, before any clamping; clamped to -15..16; 0 makes nothing pending. -/
def ownNudge (p : Packet) (s : State) : State :=
  match s.timing.nudge with
  | some _ => s.finish p.link .nudgePending []
  | none =>
    let n := fieldInt p.payload 0
    let v := clampInt n (-15) 16
    let t := if v = 0 then s.timing
      else { s.timing with nudge := some ⟨v, s.timing.now, s.timing.pendingOffset.isSome, none⟩ }
    (s.setTiming t).finish p.link (okOr (v != n)) (signed2 v)

/-- NUDGE (R14). -/
def execNudge (p : Packet) (s : State) : Host.Outcome State Fault Refusal :=
  .next (serve .nudge p ownNudge s)

/-- OFFSET in its slot (R16): clamped to 0..total - 1, it becomes the pending offset and cancels any pending nudge.
The frame start then falls at its unmoved instant, even where that has passed (log 25). -/
def ownOffset (p : Packet) (s : State) : State :=
  let v := fieldNat p.payload 0 4
  let w := min v (s.timing.total - 1)
  (s.setTiming { s.timing with pendingOffset := some w, nudge := none }).finish p.link (okOr (w != v))
    (bytes4 w)

/-- OFFSET (R16). -/
def execOffset (p : Packet) (s : State) : Host.Outcome State Fault Refusal :=
  .next (serve .offset p ownOffset s)

end Sys2Proof.Machine
end

