-- ==== Sys2Proof/Machine/Output.lean ====
section
/-! DEFINITION. The output stage (chapter 2): TAKE, CLEAR, PANIC, the fade, the pending cut, the key and fill outputs, the palette. -/

namespace Sys2Proof.Machine

/-- The ceiling of the fade accumulator (R19). -/
def accTop : Nat := 65280

/-- The key level floor(acc / 256) (R19). -/
def OutputStage.level (o : OutputStage) : Nat := o.acc / 256

/-- The slope ceil(65280 / D) of a duration of 1 or more (R20). -/
def slopeOf (d : Nat) : Nat := (accTop + d - 1) / d

/-- The longest duration of TAKE and CLEAR, in frames (R20). -/
def maxDuration : Nat := 250

/-! ### Changes of output state (R26, R27) -/

/-- The notice of a change of output state, on the studio link (R27). -/
def State.notifyOutput (s : State) (before : OutputState) : State :=
  if s.output.state = before then s else s.notify .studio (.outputState s.output.state)

/-- The output state and the accumulator become DARK and 0, and an OUTGOING page returns to DEFINED (R26); the frame in front may
then stop being keyed (R28). -/
def State.enterDark (s : State) : State :=
  ((s.setOutput { s.output with state := .dark, acc := 0 }).endOutgoing).dropKey

/-! ### TAKE and CLEAR (R20, R22-R24) -/

/-- TAKE of an accepted duration on the present output state, its pending cut cancelled first (R23, Table 2-3). -/
def OutputStage.take (o : OutputStage) (d : Nat) : OutputStage :=
  match o.state with
  | .onAir => if d = 0 then { o with cut := none } else { o with cut := none, slope := slopeOf d }
  | _ =>
    if d = 0 then { o with cut := some .toOnAir } else { o with cut := none, slope := slopeOf d, state := .fadeIn }

/-- CLEAR of an accepted duration on the present output state, its pending cut cancelled first (R24, Table 2-3). -/
def OutputStage.clear (o : OutputStage) (d : Nat) : OutputStage :=
  match o.state with
  | .dark => { o with cut := none }
  | _ =>
    if d = 0 then { o with cut := some .toDark } else { o with cut := none, slope := slopeOf d, state := .fadeOut }

/-- TAKE in its slot (R23): refused with NO_PAGE and no change where no page is LOADED; its notice goes ahead of its reply (R27). -/
def ownTake (p : Packet) (s : State) : State :=
  match s.pages.loaded with
  | none => s.finish p.link .noPage []
  | some _ =>
    let d := fieldNat p.payload 0 2
    let a := min d maxDuration
    ((s.setOutput (s.output.take a)).notifyOutput s.output.state).finish p.link (okOr (a != d)) (bytes2 a)

/-- TAKE (R23). -/
def execTake (p : Packet) (s : State) : Host.Outcome State Fault Refusal :=
  .next (serve .take p ownTake s)

/-- CLEAR in its slot (R24): accepted whether or not a page is LOADED. -/
def ownClear (p : Packet) (s : State) : State :=
  let d := fieldNat p.payload 0 2
  let a := min d maxDuration
  ((s.setOutput (s.output.clear a)).notifyOutput s.output.state).finish p.link (okOr (a != d)) (bytes2 a)

/-- CLEAR (R24). -/
def execClear (p : Packet) (s : State) : Host.Outcome State Fault Refusal :=
  .next (serve .clear p ownClear s)

/-! ### PANIC (R25) -/

/-- PANIC in its slot: it holds the slot until the first line start after it was taken (R25, R164). -/
def ownPanic (_p : Packet) (s : State) : State := s.setTiming { s.timing with panicAt := some s.timing.lineAfter }

/-- PANIC (R25). -/
def execPanic (p : Packet) (s : State) : Host.Outcome State Fault Refusal :=
  .next (serve .panic p ownPanic s)

/-- The line start at which a waiting PANIC acts is reached; where that is a frame start which no row has entered yet, it is entered, so
that what PANIC causes there carries the number that the frame start sets (R25, R27, log 6). -/
def State.reachPanic (s : State) : State :=
  (if s.timing.panicAtFrame then s.enterFrame else s).advanceTo s.timing.panicDue

/-- PANIC_ACTS: at the first line start after PANIC was taken the accumulator is 0, the state DARK, a pending cut cancelled, and the
reply queued, its notice first (R25, R27). -/
def execPanicActs (s : State) : Host.Outcome State Fault Refusal :=
  .next <|
    if s.studio.holds .panic then
      let s := s.reachPanic
      let s := s.setTiming { s.timing with panicAt := none }
      let t := (s.setOutput { s.output with cut := none }).enterDark
      (t.notifyOutput s.output.state).finish .studio .ok []
    else s

/-! ### The frame start (R21, R22, R30) -/

/-- The fade's step at a frame start (R21). -/
def OutputStage.fadeStep (o : OutputStage) : OutputStage :=
  match o.state with
  | .fadeIn =>
    let acc := min (o.acc + o.slope) accTop
    { o with acc := acc, state := if acc = accTop then .onAir else .fadeIn }
  | .fadeOut =>
    let acc := o.acc - o.slope
    { o with acc := acc, state := if acc = 0 then .dark else .fadeOut }
  | .dark => o
  | .onAir => o

/-- A pending cut at a frame start, the cut then cleared; TO_ON_AIR is dropped where no page is LOADED (R22). -/
def OutputStage.applyCut (o : OutputStage) (loaded : Bool) : OutputStage :=
  match o.cut with
  | none => o
  | some .toOnAir =>
    if loaded then { o with cut := none, acc := accTop, state := .onAir } else { o with cut := none }
  | some .toDark => { o with cut := none, acc := 0, state := .dark }

/-- The output stage's own step at a frame start: a pending cut in place of the fade's step (R22). -/
def OutputStage.frame (o : OutputStage) (loaded : Bool) : OutputStage :=
  match o.cut with
  | some _ => o.applyCut loaded
  | none => o.fadeStep

/-- The output stage's handling of a frame start; entering DARK ends an OUTGOING page (R22, R26). -/
def State.outputFrame (s : State) : State :=
  let t := s.setOutput (s.output.frame s.pages.loaded.isSome)
  if t.output.state = .dark ∧ s.output.state ≠ .dark then t.endOutgoing.dropKey else t

/-- PENDING_CUT: the output stage handles the frame start now due ahead of the rest, and applies or drops its pending cut (R22,
log 6). -/
def execPendingCut (s : State) : Host.Outcome State Fault Refusal :=
  .next <|
    match s.output.cut with
    | none => s
    | some _ =>
      if s.isAhead .output then s
      else
        let s := s.enterFrame
        (s.outputFrame.markAhead .output).notifyOutput s.output.state

/-! ### The palette (R30, R31) -/

/-- The four components at an entry of a PALETTE WRITE payload. -/
def rawColour (bytes : List Byte) : Colour :=
  ⟨fieldNat bytes 0 1, fieldNat bytes 1 1, fieldNat bytes 2 1, fieldNat bytes 3 1⟩

/-- Y clamped to 16..235, Cb and Cr to 16..240; key is never clamped (R31). -/
def Colour.clamp (c : Colour) : Colour :=
  ⟨clampNat c.y 16 235, clampNat c.cb 16 240, clampNat c.cr 16 240, c.key⟩

/-- Entries written from entry `e` on, in order (R31). -/
def writeEntries (v : Vector Colour 32) (e : Nat) : List Colour → Vector Colour 32
  | [] => v
  | c :: rest => writeEntries (v.setIfInBounds e c) (e + 1) rest

/-- PALETTE WRITE in its slot (R31). -/
def ownPaletteWrite (p : Packet) (s : State) : State :=
  let e := fieldNat p.payload 0 1
  let c := fieldNat p.payload 1 1
  if 31 < e ∨ c < 1 ∨ 32 < c ∨ 32 < e + c then s.finish p.link .range []
  else
    let raw := (records 4 c (p.payload.drop 2)).map rawColour
    let cl := raw.map Colour.clamp
    (s.setOutput { s.output with staged := writeEntries s.output.staged e cl }).finish p.link
      (okOr (cl != raw)) []

/-- PALETTE WRITE (R31). -/
def execPaletteWrite (p : Packet) (s : State) : Host.Outcome State Fault Refusal :=
  .next (serve .paletteWrite p ownPaletteWrite s)

/-! ### The fill and key pins (R4, R19, R28, R29) -/

/-- What the fill and key outputs carry in one pixel period. -/
structure Video where
  y : Nat
  cb : Nat
  cr : Nat
  key : Nat
  deriving DecidableEq, Repr

/-- Blanking: Y 16, Cb 128, Cr 128, key 0 (R29). -/
def Video.blanking : Video := ⟨16, 128, 128, 0⟩

/-- The output pixel position within the frame in progress (R4). -/
def Timing.position (t : Timing) : Nat := t.now - t.began

/-- The line number of the present position (R4). -/
def Timing.lineNumber (t : Timing) : Nat := t.position / t.rate.width

/-- The pixel within the line (R4). -/
def Timing.pixelInLine (t : Timing) : Nat := t.position % t.rate.width

/-- The screen pixel of the present position, if it is an active pixel: lines 41 to 1120, the first 1920 periods of each (R4). -/
def Timing.screenPixel (t : Timing) : Option (Nat × Nat) :=
  if 41 ≤ t.lineNumber ∧ t.lineNumber ≤ 1120 ∧ t.pixelInLine < 1920 then
    some (t.pixelInLine, t.lineNumber - 41)
  else none

/-- The key output of a pixel whose palette entry has the key component `key` (R29). -/
def keyOutput (o : OutputStage) (hasFront : Bool) (key : Nat) : Nat :=
  if hasFront && o.keyEnable && (o.state != .dark) then (key * o.level + 127) / 255 else 0

/-- The palette index at a screen pixel of a buffer. -/
def FrameBuffer.index (b : FrameBuffer) (x y : Nat) : Nat := Mem.read pixelDefault b.pixels (y * 1920 + x)

/-- Entry `i` of a palette. -/
def paletteEntry (v : Vector Colour 32) (i : Nat) : Colour := v[i]?.getD Colour.black

/-- What the fill and key pins carry at the present instant (R29). -/
def State.video (s : State) : Video :=
  match s.timing.screenPixel with
  | none => Video.blanking
  | some (x, y) =>
    let i := match s.render.front with
      | none => 0
      | some b => b.index x y
    let c := paletteEntry s.output.palette i
    ⟨c.y, c.cb, c.cr, keyOutput s.output s.render.front.isSome c.key⟩

end Sys2Proof.Machine
end

