-- ==== Sys2Proof/Machine/Pages.lean ====
section
/-! DEFINITION. The page table (chapter 3): viewports and their mappings, PAGE DEFINE, PAGE DELETE, PAGE READ, LOAD and UNLOAD. -/

namespace Sys2Proof.Machine

/-! ### Viewports (R34, R37-R40) -/

/-- Both windows lie where they must: the chart window in the plane and not empty, the screen window in the active raster and at
least 16 pixels each way (R34). -/
def Viewport.inPlane (v : Viewport) : Bool :=
  decide (1 ≤ v.cw) && decide (1 ≤ v.ch) && decide (v.cx0 + v.cw ≤ 65536) && decide (v.cy0 + v.ch ≤ 65536) &&
    decide (16 ≤ v.sw) && decide (v.sw ≤ 1920) && decide (16 ≤ v.sh) && decide (v.sh ≤ 1080) &&
    decide (v.sx0 + v.sw ≤ 1920) && decide (v.sy0 + v.sh ≤ 1080)

/-- The scale on each axis lies between 1/8 and 64 chart units per pixel (R37). -/
def Viewport.scaleOk (v : Viewport) : Bool :=
  decide (v.sw ≤ 8 * v.cw) && decide (v.cw ≤ 64 * v.sw) && decide (v.sh ≤ 8 * v.ch) && decide (v.ch ≤ 64 * v.sh)

/-- The tile columns that the chart window touches: the first and how many (R38). -/
def Viewport.tileColumns (v : Viewport) : Nat × Nat :=
  (v.cx0 / 4096, (v.cx0 + v.cw - 1) / 4096 + 1 - v.cx0 / 4096)

/-- The tile rows that the chart window touches: the first and how many (R38). -/
def Viewport.tileRows (v : Viewport) : Nat × Nat :=
  (v.cy0 / 4096, (v.cy0 + v.ch - 1) / 4096 + 1 - v.cy0 / 4096)

/-- The number of tiles that the chart window touches (R38). -/
def Viewport.tileCount (v : Viewport) : Nat := v.tileColumns.2 * v.tileRows.2

/-- The tiles that the chart window touches, in ascending order of tile id (R38, R119). -/
def Viewport.tiles (v : Viewport) : List Nat :=
  (List.range v.tileRows.2).flatMap fun r =>
    (List.range v.tileColumns.2).map fun c => (v.tileRows.1 + r) * 16 + (v.tileColumns.1 + c)

/-- A viewport that PAGE DEFINE accepts (R34, R37, R38). -/
def Viewport.accepted (v : Viewport) : Bool := v.inPlane && v.scaleOk && decide (v.tileCount ≤ 64)

/-- The screen point of a chart point, floor division on negative numerators too (R39). -/
def Viewport.toScreen (v : Viewport) (cx cy : Int) : Int × Int :=
  ((v.sx0 : Int) + (cx - v.cx0) * v.sw / (v.cw : Int), (v.sy0 : Int) + (cy - v.cy0) * v.sh / (v.ch : Int))

/-- The chart point at the centre of a screen pixel of the screen window (R40). -/
def Viewport.toChart (v : Viewport) (px py : Nat) : Nat × Nat :=
  (v.cx0 + ((px - v.sx0) * 2 + 1) * v.cw / (2 * v.sw), v.cy0 + ((py - v.sy0) * 2 + 1) * v.ch / (2 * v.sh))

/-- A screen point lies in the screen window (R117). -/
def Viewport.inWindow (v : Viewport) (x y : Int) : Bool :=
  decide ((v.sx0 : Int) ≤ x) && decide (x < (v.sx0 : Int) + v.sw) && decide ((v.sy0 : Int) ≤ y) &&
    decide (y < (v.sy0 : Int) + v.sh)

/-! ### PAGE DEFINE (R36, R41) -/

/-- The page that a command names in its short argument, 0..15 (R185). -/
def pageOf (p : Packet) : Fin 16 := p.arg.toFin

/-- The page record of a PAGE DEFINE payload, and whether a magnitude was clamped; none where the sea index, the layer count or a
layer record is refused with RANGE (R34, R36). -/
def parsePage (bytes : List Byte) : Option (PageRecord × Bool) :=
  let count := fieldNat bytes 19 1
  match colourOf (fieldByte bytes 18), parseAll parseLayer (records 17 count (bytes.drop 20)) with
  | some sea, some layers =>
    if 1 ≤ count ∧ count ≤ 8 then
      some (⟨parseViewport bytes, sea, layers.map (·.1)⟩, layers.any (·.2))
    else none
  | _, _ => none

/-- The buffer with its page tag absent if it names page `p` (R41, R43). -/
def FrameBuffer.untag (b : FrameBuffer) (p : Fin 16) : FrameBuffer :=
  if b.tag = some p then { b with tag := none } else b

/-- The content of page `p` is replaced or removed: every buffer tagged with it loses its tag, and a job that draws it will complete
with its buffer's tag absent (R41, R43). -/
def Render.contentGone (r : Render) (p : Fin 16) : Render :=
  { r with
    bufferA := r.bufferA.untag p
    bufferB := r.bufferB.untag p
    job := r.job.map (fun j => if j.page = p then { j with contentStands := false } else j) }

/-- The page is LOADED or OUTGOING, so PAGE DEFINE and PAGE DELETE refuse it (R41, R43). -/
def State.pageHeld (s : State) (p : Fin 16) : Bool := s.pages.keyed p

/-- PAGE DEFINE in its slot: PAGE_IN_USE, RANGE, VIEWPORT in that order, then the whole record is stored (R41).
A page number outside 0..15 cannot be carried by the short argument. -/
def ownPageDefine (p : Packet) (s : State) : State :=
  let n := pageOf p
  if s.pageHeld n then s.finish p.link .pageInUse []
  else match parsePage p.payload with
    | none => s.finish p.link .range []
    | some (rec, adjusted) =>
      if rec.view.accepted then
        ((s.setPages { s.pages with pages := s.pages.pages.set n (some rec) }).setRender
          (s.render.contentGone n)).finish p.link (okOr adjusted) []
      else s.finish p.link .viewport []

/-- PAGE DEFINE (R41). -/
def execPageDefine (p : Packet) (s : State) : Host.Outcome State Fault Refusal :=
  .next (serve .pageDefine p ownPageDefine s)

/-! ### PAGE DELETE and PAGE READ (R43, R44) -/

/-- PAGE DELETE in its slot (R43). -/
def ownPageDelete (p : Packet) (s : State) : State :=
  let n := pageOf p
  if s.pageHeld n then s.finish p.link .pageInUse []
  else match s.pages.pages[n] with
    | none => s.finish p.link .ok []
    | some _ =>
      ((s.setPages { s.pages with pages := s.pages.pages.set n none }).setRender
        (s.render.contentGone n)).finish p.link .ok []

/-- PAGE DELETE (R43). -/
def execPageDelete (p : Packet) (s : State) : Host.Outcome State Fault Refusal :=
  .next (serve .pageDelete p ownPageDelete s)

/-- The result of PAGE READ: the state byte, then the content of a page that is not EMPTY (R44, R182). -/
def pageReadResult (s : State) (n : Fin 16) : List Byte :=
  (s.pages.pageState n).code :: (match s.pages.pages[n] with
    | none => []
    | some rec => pageBytes rec)

/-- PAGE READ in its slot (R44). -/
def ownPageRead (p : Packet) (s : State) : State := s.finish p.link .ok (pageReadResult s (pageOf p))

/-- PAGE READ (R44). -/
def execPageRead (p : Packet) (s : State) : Host.Outcome State Fault Refusal :=
  .next (serve .pageRead p ownPageRead s)

/-! ### LOAD and UNLOAD (R45-R48) -/

/-- The page table after a LOAD of page `p` that is not already LOADED (R46, Table 3-4). -/
def PageTable.load (t : PageTable) (dark : Bool) (p : Fin 16) : PageTable :=
  { t with
    loaded := some p
    outgoing :=
      match t.loaded with
      | none => t.outgoing
      | some q =>
        if dark then none
        else match t.outgoing with
          | none => some q
          | some o => if o = p then none else some o }

/-- The result of LOAD: the LOADED and the OUTGOING page (R45). -/
def loadResult (t : PageTable) : List Byte := [pageByte t.loaded, pageByte t.outgoing]

/-- LOAD in its slot: RANGE for an EMPTY page, OK with no change for a page already LOADED, CHART_BUSY while a flash operation is in
flight, else R46, and the newly loaded mark is set (R45, R46, R114). -/
def ownLoad (p : Packet) (s : State) : State :=
  let n := pageOf p
  if s.pages.pages[n].isNone then s.finish p.link .range []
  else if s.pages.loaded = some n then s.finish p.link .ok (loadResult s.pages)
  else if s.chart.op.isSome then s.finish p.link .chartBusy []
  else
    let t := s.pages.load (s.output.state == .dark) n
    (((s.setPages t).setRender { s.render with newlyLoaded := some n }).dropKey).finish p.link .ok
      (loadResult t)

/-- LOAD (R45). -/
def execLoad (p : Packet) (s : State) : Host.Outcome State Fault Refusal :=
  .next (serve .load p ownLoad s)

/-- UNLOAD in its slot: NO_PAGE, PAGE_IN_USE unless the output is DARK, else the LOADED page returns to DEFINED and the newly loaded
mark is cleared (R48, R114). -/
def ownUnload (p : Packet) (s : State) : State :=
  if s.pages.loaded = none then s.finish p.link .noPage []
  else if s.output.state ≠ .dark then s.finish p.link .pageInUse []
  else
    (((s.setPages { s.pages with loaded := none }).setRender { s.render with newlyLoaded := none }).dropKey).finish
      p.link .ok []

/-- UNLOAD (R48). -/
def execUnload (p : Packet) (s : State) : Host.Outcome State Fault Refusal :=
  .next (serve .unload p ownUnload s)

end Sys2Proof.Machine
end

