-- ==== Sys2Proof/Machine/Timelines.lean ====
section
/-! DEFINITION. The timeline unit (chapter 5): the step cycle at a frame start, the timeline commands, and the blink generators. -/

namespace Sys2Proof.Machine

/-! ### Step period and profiles (R71-R74) -/

/-- The period of a rate code (Table 5-2). -/
def ratePeriod : Nat → Nat
  | 0 => 8
  | 1 => 10
  | 2 => 12
  | 3 => 16
  | 4 => 20
  | 5 => 25
  | 6 => 32
  | _ => 50

/-- The period of a step that begins now; a reverse step at rate code 0 is served at rate code 1 (R71). -/
def Timeline.stepPeriod (t : Timeline) : Nat :=
  if t.reverse && t.rate == 0 then ratePeriod 1 else ratePeriod t.rate

/-- A travel of `tr` frames at its frame `k`, counted from 1 (R72). -/
def travel (tr k : Nat) : Nat := if k ≤ tr then (512 * k + tr) / (2 * tr) else 256

/-- The fraction at step frame count `k` before the commit (R72, R73). -/
def Timeline.profile (t : Timeline) (k : Nat) : Nat :=
  if t.reverse then (if k ≤ t.lead then 0 else travel t.tr (k - t.lead)) else travel t.tf k

/-! ### The step cycle (R75-R77) -/

/-- A step is in progress (R69). -/
def Timeline.moving (t : Timeline) : Bool := t.state == .stepping || t.state == .stopping

/-- The step would leave the span (R75). -/
def Timeline.atLimit (t : Timeline) : Bool :=
  if t.reverse then t.s == 0 else decide (t.span ≤ t.s + 1)

/-- The commit of a step (R76). -/
def Timeline.commit (t : Timeline) : Timeline :=
  let c := t.counter - 1
  { t with
    s := if t.reverse then t.s - 1 else t.s + 1
    q := 0
    k := 0
    counter := if c = 0 then t.queued else c
    queued := if c = 0 then 0 else t.queued
    rate := t.nextRate.getD t.rate
    nextRate := none
    state := if t.state = .stopping then .stopped else .armed }

/-- The next frame start commits the step in progress (R75, R76). -/
def Timeline.commitDue (t : Timeline) : Bool := t.moving && decide (t.period ≤ t.k + 1)

/-- One frame start of a step in progress (R75). -/
def Timeline.advance (t : Timeline) : Timeline :=
  if t.period ≤ t.k + 1 then t.commit else { t with k := t.k + 1, q := t.profile (t.k + 1) }

/-- The begin of a step, its period fixed, before the increment of the same frame start (R75). -/
def Timeline.beginStep (t : Timeline) : Timeline :=
  { t with state := .stepping, period := t.stepPeriod, k := 0 }

/-- What a frame start does to a timeline's own items (R75). -/
def Timeline.cycle (t : Timeline) : Timeline :=
  match t.state with
  | .stopped => t
  | .armed =>
    if t.counter = 0 then t
    else if t.atLimit then { t with counter := 0, queued := 0 }
    else t.beginStep.advance
  | .stepping => t.advance
  | .stopping => t.advance

/-- The values for the frame: s, q, direction, and at a boundary unless a step is in progress after the frame start (R78).
A commit leaves no step in progress, so it is at a boundary too. -/
def Timeline.values (t : Timeline) : TimelineValues := ⟨t.s, t.q, t.reverse, !t.moving⟩

/-- A timeline handles a frame start (R75, R78). -/
def Timeline.frame (t : Timeline) : Timeline := { t.cycle with shown := t.cycle.values }

/-- The reason of the TIMELINE_END notice that a frame start queues, if it queues one (R75, R76). -/
def Timeline.ends (t : Timeline) : Option EndReason :=
  match t.state with
  | .stopped => none
  | .stopping => none
  | .armed => if t.counter ≠ 0 ∧ t.atLimit = true then some .limit else none
  | .stepping =>
    if t.commitDue = true ∧ t.counter - 1 = 0 ∧ t.queued = 0 then some .count else none

/-- The TIMELINE_END notice of a frame start, with the position after it (R77). -/
def Timeline.frameNotice (t : Timeline) (n : Fin 4) : List Notice :=
  match t.ends with
  | none => []
  | some r => [.timelineEnd n r t.frame.s]

/-- A timeline handles the frame start that has been entered, with its notice, ahead of the rest (R75, R77, log 6). -/
def State.handleTimeline (s : State) (t : Fin 4) : State :=
  ((s.setTimeline t s.timelines[t].frame).markAhead (.timeline t)).notifyAll .studio (s.timelines[t].frameNotice t)

/-- The same, where it has not handled that frame start already. -/
def State.timelineAhead (s : State) (t : Fin 4) : State := if s.isAhead (.timeline t) then s else s.handleTimeline t

/-- TIMELINE_COMMIT: a timeline whose step's frame count reaches P handles the frame start now due ahead of the rest (R76, log 6). -/
def execTimelineCommit (t : Fin 4) (s : State) : Host.Outcome State Fault Refusal :=
  .next <|
    if s.timelines[t].commitDue && !s.isAhead (.timeline t) then s.enterFrame.handleTimeline t else s

/-! ### Timeline commands (R80-R85) -/

/-- The result of a timeline command: state, s, q, step counter and pending count (R69, R182). -/
def Timeline.result (t : Timeline) : List Byte :=
  [t.state.code, byteOf t.s] ++ bytes2 t.q ++ [byteOf t.counter, byteOf t.queued]

/-- Store a timeline and answer its command with its values after the command (R69). -/
def State.answerTimeline (s : State) (l : Link) (n : Fin 4) (v : Timeline) (adjusted : Bool) : State :=
  (s.setTimeline n v).finish l (okOr adjusted) v.result

/-- The rate in force or the next-step rate is 0 while the direction is reverse (R71). -/
def Timeline.servedSlow (t : Timeline) : Bool := t.reverse && (t.rate == 0 || t.nextRate == some 0)

/-- The parameters of TIMELINE SET stored, each clamped, and s brought within the span (R80). -/
def Timeline.set (t : Timeline) (payload : List Byte) : Timeline :=
  let span := clampNat (fieldNat payload 5 1) 1 25
  { t with
    reverse := fieldFlag payload 0
    rate := fieldNat payload 1 1
    tf := clampNat (fieldNat payload 2 1) 1 64
    lead := min (fieldNat payload 3 1) 15
    tr := clampNat (fieldNat payload 4 1) 1 64
    span := span
    s := min t.s (span - 1) }

/-- TIMELINE SET clamped a value or moved s (R80). -/
def Timeline.setAdjusts (t : Timeline) (payload : List Byte) : Bool :=
  let v := t.set payload
  v.tf != fieldNat payload 2 1 || v.lead != fieldNat payload 3 1 || v.tr != fieldNat payload 4 1 ||
    v.span != fieldNat payload 5 1 || v.s != t.s

/-- TIMELINE SET in its slot (R80). -/
def ownTimelineSet (p : Packet) (s : State) : State :=
  match indexOf 4 p.arg.toNat with
  | none => s.finish p.link .range []
  | some n =>
    let t := s.timelines[n]
    if t.moving then s.finish p.link .moving []
    else if 7 < fieldNat p.payload 1 1 then s.finish p.link .range []
    else s.answerTimeline p.link n (t.set p.payload)
      (t.setAdjusts p.payload || (t.set p.payload).servedSlow)

/-- TIMELINE SET (R80). -/
def execTimelineSet (p : Packet) (s : State) : Host.Outcome State Fault Refusal :=
  .next (serve .timelineSet p ownTimelineSet s)

/-- `n` further steps: into the counter where it is 0, else in place of the pending count (R81). -/
def Timeline.steps (t : Timeline) (n : Nat) : Timeline :=
  if t.counter = 0 then { t with counter := n } else { t with queued := n }

/-- TIMELINE STEPS in its slot (R81). -/
def ownTimelineSteps (p : Packet) (s : State) : State :=
  match indexOf 4 p.arg.toNat with
  | none => s.finish p.link .range []
  | some i =>
    let n := fieldNat p.payload 0 1
    s.answerTimeline p.link i (s.timelines[i].steps (min n 15)) (min n 15 != n)

/-- TIMELINE STEPS (R81). -/
def execTimelineSteps (p : Packet) (s : State) : Host.Outcome State Fault Refusal :=
  .next (serve .timelineSteps p ownTimelineSteps s)

/-- The rate code that TIMELINE RUN carries: none where its payload is empty (R186). -/
def runRate (payload : List Byte) : Option Nat := if payload.isEmpty then none else some (fieldNat payload 0 1)

/-- Run is turned on: the state and a rate code given, by the present state (R82). -/
def Timeline.run (t : Timeline) (rate : Option Nat) : Timeline :=
  match t.state with
  | .stopped => { t with state := .armed, rate := rate.getD t.rate }
  | .armed => { t with rate := rate.getD t.rate }
  | .stepping => { t with nextRate := rate.or t.nextRate }
  | .stopping => { t with state := .stepping, nextRate := rate.or t.nextRate }

/-- TIMELINE RUN in its slot (R82); ADJUSTED where a rate code was given and R71 asks for it (log 23). -/
def ownTimelineRun (p : Packet) (s : State) : State :=
  match indexOf 4 p.arg.toNat with
  | none => s.finish p.link .range []
  | some n =>
    let v := s.timelines[n].run (runRate p.payload)
    match runRate p.payload with
    | none => s.answerTimeline p.link n v false
    | some r =>
      if 7 < r then s.finish p.link .range [] else s.answerTimeline p.link n v v.servedSlow

/-- TIMELINE RUN (R82). -/
def execTimelineRun (p : Packet) (s : State) : Host.Outcome State Fault Refusal :=
  .next (serve .timelineRun p ownTimelineRun s)

/-- Run is turned off (R83). -/
def Timeline.stop (t : Timeline) : Timeline :=
  match t.state with
  | .armed => { t with state := .stopped }
  | .stepping => { t with state := .stopping }
  | .stopped => t
  | .stopping => t

/-- TIMELINE STOP in its slot (R83). -/
def ownTimelineStop (p : Packet) (s : State) : State :=
  match indexOf 4 p.arg.toNat with
  | none => s.finish p.link .range []
  | some n => s.answerTimeline p.link n s.timelines[n].stop false

/-- TIMELINE STOP (R83). -/
def execTimelineStop (p : Packet) (s : State) : Host.Outcome State Fault Refusal :=
  .next (serve .timelineStop p ownTimelineStop s)

/-- TIMELINE JUMP in its slot (R84). -/
def ownTimelineJump (p : Packet) (s : State) : State :=
  match indexOf 4 p.arg.toNat with
  | none => s.finish p.link .range []
  | some n =>
    let t := s.timelines[n]
    let x := fieldNat p.payload 0 1
    if t.moving then s.finish p.link .moving []
    else s.answerTimeline p.link n { t with s := min x (t.span - 1) } (min x (t.span - 1) != x)

/-- TIMELINE JUMP (R84). -/
def execTimelineJump (p : Packet) (s : State) : Host.Outcome State Fault Refusal :=
  .next (serve .timelineJump p ownTimelineJump s)

/-- TIMELINE CLEAR in its slot (R85). -/
def ownTimelineClear (p : Packet) (s : State) : State :=
  match indexOf 4 p.arg.toNat with
  | none => s.finish p.link .range []
  | some n =>
    let t := s.timelines[n]
    if t.moving then s.finish p.link .moving []
    else s.answerTimeline p.link n { t with counter := 0, queued := 0 } false

/-- TIMELINE CLEAR (R85). -/
def execTimelineClear (p : Packet) (s : State) : Host.Outcome State Fault Refusal :=
  .next (serve .timelineClear p ownTimelineClear s)

/-! ### Blink generators (R88-R91) -/

/-- The next frame start returns the counter to 0 (R88). -/
def Blink.cycleEnds (b : Blink) : Bool := b.enabled && decide (b.period ≤ b.counter + 1)

/-- The count of a blink generator at a frame start: counter, period, on-count and phase (R88); a disabled one holds its counter at 0
and its phase at ON. -/
def Blink.count (b : Blink) : Blink :=
  if !b.enabled then { b with counter := 0, on := true }
  else if b.period ≤ b.counter + 1 then
    match b.staged with
    | none => { b with counter := 0, on := decide (0 < b.onCount) }
    | some (p, c) => { b with counter := 0, period := p, onCount := c, staged := none, on := decide (0 < c) }
  else { b with counter := b.counter + 1, on := decide (b.counter + 1 < b.onCount) }

/-- A blink generator handles the frame start at instant `start` (R88); one that a BLINK SET enabled at that very instant, ahead of the
frame start, is ON for the frame whatever its count (R91, log 31). -/
def Blink.frame (b : Blink) (start : Nat) : Blink :=
  { b.count with on := b.count.on || b.enabledAt == some start, enabledAt := none }

/-- BLINK_CYCLE_END: a generator whose cycle ends handles the frame start now due ahead of the rest (R88, log 6). -/
def execBlinkCycleEnd (b : Fin 4) (s : State) : Host.Outcome State Fault Refusal :=
  .next <|
    if s.blinks[b].cycleEnds && !s.isAhead (.blink b) then
      let s := s.enterFrame
      (s.setBlink b (s.blinks[b].frame s.timing.began)).markAhead (.blink b)
    else s

/-- A period and an on-count, clamped, applied at instant `now` under the enable flag that the command carries (R90). -/
def Blink.set (b : Blink) (period onCount : Nat) (enable : Bool) (now : Nat) : Blink :=
  if b.enabled && enable then { b with staged := some (period, onCount) }
  else
    { b with
      enabled := enable
      period := period
      onCount := onCount
      staged := none
      counter := 0
      on := true
      enabledAt := if enable then some now else none }

/-- The result of BLINK SET: the enable flag, the pair in force, and the staged pair, 0 and 0 where it is absent (R90, R182). -/
def Blink.result (b : Blink) : List Byte :=
  [flagByte b.enabled, byteOf b.period, byteOf b.onCount] ++
    (match b.staged with
      | none => [0, 0]
      | some (p, c) => [byteOf p, byteOf c])

/-- BLINK SET in its slot (R90): the on-count is clamped by the clamped period. -/
def ownBlinkSet (p : Packet) (s : State) : State :=
  match indexOf 4 p.arg.toNat with
  | none => s.finish p.link .range []
  | some n =>
    let rp := fieldNat p.payload 0 1
    let rc := fieldNat p.payload 1 1
    let period := clampNat rp 2 255
    let onCount := clampNat rc 1 (period - 1)
    let b := s.blinks[n].set period onCount (fieldFlag p.payload 2) s.timing.now
    (s.setBlink n b).finish p.link (okOr (period != rp || onCount != rc)) b.result

/-- BLINK SET (R90). -/
def execBlinkSet (p : Packet) (s : State) : Host.Outcome State Fault Refusal :=
  .next (serve .blinkSet p ownBlinkSet s)

end Sys2Proof.Machine
end

