-- ==== Sys2Proof/Machine/Grid.lean ====
section
/-! DEFINITION. The forecast data store (chapter 4): GRID commands, the flip, and the deferred list and symbol writes. -/

namespace Sys2Proof.Machine

/-! ### GRID DEFINE (R53, R54) -/

/-- The kind byte of GRID DEFINE (Table 12-3). -/
def fieldKindOf (b : Byte) : Option FieldKind :=
  if b = 0 then some .wind else if b = 1 then some .tide else none

/-- The render job in flight holds a live bank of field set `f` (R60). -/
def Render.holds (r : Render) (f : Fin 4) : Bool :=
  match r.job with
  | none => false
  | some j => j.captured[f].isSome

/-- A layer of the LOADED or of the OUTGOING page names field set `f` (R53). -/
def PageTable.namesField (t : PageTable) (f : Fin 4) : Bool :=
  (match t.loadedRecord with | none => false | some p => p.names f) ||
    (match t.outgoingRecord with | none => false | some p => p.names f)

/-- The geometry lies in its ranges and the grid in the plane (R53). -/
def Geometry.valid (g : Geometry) : Bool :=
  decide (1 ≤ g.spacing) && decide (g.spacing ≤ 4096) && decide (2 ≤ g.columns) && decide (g.columns ≤ 64) &&
    decide (2 ≤ g.rows) && decide (g.rows ≤ 48) && decide (1 ≤ g.slots) && decide (g.slots ≤ 25) &&
    decide (g.x0 + (g.columns - 1) * g.spacing ≤ 65535) && decide (g.y0 + (g.rows - 1) * g.spacing ≤ 65535)

/-- The geometry that a GRID DEFINE payload carries, or none where its kind is neither WIND nor TIDE (R53, Table 12-3). -/
def parseGeometry (b : List Byte) : Option Geometry :=
  match fieldKindOf (fieldByte b 0) with
  | none => none
  | some k =>
    some ⟨k, fieldNat b 1 2, fieldNat b 3 2, fieldNat b 5 2, fieldNat b 7 1, fieldNat b 8 1, fieldNat b 9 1⟩

/-- A field set defined anew: both maps empty, bank 0 staging, bank 1 none; the values in DRAM stay (R54). -/
def FieldSet.define (f : FieldSet) (g : Geometry) : FieldSet :=
  ⟨some g, ⟨.staging, f.bank0.values, []⟩, ⟨.unused, f.bank1.values, []⟩⟩

/-- GRID DEFINE in its slot (R53, R54). -/
def ownGridDefine (p : Packet) (s : State) : State :=
  match indexOf 4 p.arg.toNat with
  | none => s.finish p.link .range []
  | some f =>
    if s.pages.namesField f || s.render.holds f then s.finish p.link .pageInUse []
    else match parseGeometry p.payload with
      | none => s.finish p.link .range []
      | some g =>
        if g.valid then (s.setFieldSet f (s.store.sets[f].define g)).finish p.link .ok []
        else s.finish p.link .range []

/-- GRID DEFINE (R53). -/
def execGridDefine (p : Packet) (s : State) : Host.Outcome State Fault Refusal :=
  .next (serve .gridDefine p ownGridDefine s)

/-! ### GRID ROWS (R55, R56) -/

/-- The key of a row in a bank (log 14). -/
def rowKey (slot row : Nat) : Nat := slot * 48 + row

/-- The number of values at one node (R52). -/
def FieldKind.arity : FieldKind → Nat
  | .wind => 2
  | .tide => 3

/-- The `i`-th value of a row clamped to the range of its quantity: wind components to -2000..2000, heights to -1000..2000, tide
components to -1500..1500 (R52). -/
def FieldKind.clamp (k : FieldKind) (i : Nat) (v : Int) : Int :=
  match k with
  | .wind => clampInt v (-2000) 2000
  | .tide => if i % 3 = 0 then clampInt v (-1000) 2000 else clampInt v (-1500) 1500

/-- The `n` signed values of a GRID ROWS payload, after the slot and the row (R55). -/
def rowValues (n : Nat) (bytes : List Byte) : List Int :=
  (List.range n).map (fun i => fieldInt bytes (2 + 2 * i))

/-- The values clamped, each by its place (R56). -/
def FieldKind.clampRow (k : FieldKind) (vs : List Int) : List Int :=
  (List.range vs.length).map (fun i => k.clamp i (vs.getD i 0))

/-- The map with a key added, rising, each key once (R56). -/
def addKey (key : Nat) : List Nat → List Nat
  | [] => [key]
  | k :: rest => if key < k then key :: k :: rest else if key = k then k :: rest else k :: addKey key rest

/-- What a row that nothing has written holds: no values. -/
def rowDefault : List Int := []

/-- A row written whole and counted as written (R56). -/
def Bank.writeRow (b : Bank) (slot row : Nat) (vs : List Int) : Bank :=
  { b with
    values := Mem.write rowDefault b.values (rowKey slot row) vs
    written := addKey (rowKey slot row) b.written }

/-- The rows still missing from a bank: slots x rows less the pairs in its map (R56). -/
def Bank.missing (b : Bank) (g : Geometry) : Nat := g.slots * g.rows - b.written.length

/-- GRID ROWS in its slot (R55, R56).
A DEFINED field set with no pending bank has a staging bank in each arrangement of Table 4-2. -/
def ownGridRows (p : Packet) (s : State) : State :=
  match indexOf 4 p.arg.toNat with
  | none => s.finish p.link .range []
  | some f =>
    let fs := s.store.sets[f]
    match fs.geometry with
    | none => s.finish p.link .range []
    | some g =>
      if (fs.findRole .pending).isSome then s.finish p.link .pending []
      else
        let slot := fieldNat p.payload 0 1
        let row := fieldNat p.payload 1 1
        if g.slots ≤ slot ∨ g.rows ≤ row then s.finish p.link .range []
        else match fs.findRole .staging with
          | none => s.finish p.link .range []
          | some second =>
            let raw := rowValues (g.columns * g.kind.arity) p.payload
            let vs := g.kind.clampRow raw
            let b := (fs.bank second).writeRow slot row vs
            (s.setFieldSet f (fs.setBank second b)).finish p.link (okOr (vs != raw)) (bytes2 (b.missing g))

/-- GRID ROWS (R55). -/
def execGridRows (p : Packet) (s : State) : Host.Outcome State Fault Refusal :=
  .next (serve .gridRows p ownGridRows s)

/-! ### GRID PUBLISH (R57) -/

/-- The first missing (slot, row) pair in slot-major order (R57). -/
def Bank.firstMissing (b : Bank) (g : Geometry) : Option (Nat × Nat) :=
  ((List.range g.slots).flatMap (fun sl => (List.range g.rows).map (fun r => (sl, r)))).find?
    (fun x => !b.written.contains (rowKey x.1 x.2))

/-- GRID PUBLISH in its slot (R57). -/
def ownGridPublish (p : Packet) (s : State) : State :=
  match indexOf 4 p.arg.toNat with
  | none => s.finish p.link .range []
  | some f =>
    let fs := s.store.sets[f]
    match fs.geometry with
    | none => s.finish p.link .range []
    | some g =>
      if (fs.findRole .pending).isSome then s.finish p.link .pending []
      else match fs.findRole .staging with
        | none => s.finish p.link .range []
        | some second =>
          match (fs.bank second).firstMissing g with
          | some (sl, r) =>
            s.finish p.link .incomplete (bytes2 ((fs.bank second).missing g) ++ [byteOf sl, byteOf r])
          | none =>
            (s.setFieldSet f (fs.setBank second { fs.bank second with role := .pending })).finish p.link .ok []

/-- GRID PUBLISH (R57). -/
def execGridPublish (p : Packet) (s : State) : Host.Outcome State Fault Refusal :=
  .next (serve .gridPublish p ownGridPublish s)

/-! ### GRID STATUS (R61) -/

/-- The missing count of the staging bank, FFFFh with none (R61, R186). -/
def FieldSet.missingBytes (f : FieldSet) (g : Geometry) : List Byte :=
  match f.findRole .staging with
  | none => [absentByte, absentByte]
  | some second => bytes2 ((f.bank second).missing g)

/-- The result of GRID STATUS: state, geometry, roles and missing count, every absent byte FFh (R61, R182, log 19). -/
def FieldSet.statusBytes (f : FieldSet) : List Byte :=
  match f.geometry with
  | none => 0 :: List.replicate 14 absentByte
  | some g =>
    [1, g.kind.code] ++ bytes2 g.x0 ++ bytes2 g.y0 ++ bytes2 g.spacing ++
      [byteOf g.columns, byteOf g.rows, byteOf g.slots, f.bank0.role.code, f.bank1.role.code] ++ f.missingBytes g

/-- GRID STATUS in its slot (R61). -/
def ownGridStatus (p : Packet) (s : State) : State :=
  match indexOf 4 p.arg.toNat with
  | none => s.finish p.link .range []
  | some f => s.finish p.link .ok s.store.sets[f].statusBytes

/-- GRID STATUS (R61). -/
def execGridStatus (p : Packet) (s : State) : Host.Outcome State Fault Refusal :=
  .next (serve .gridStatus p ownGridStatus s)

/-! ### The flip (R58, R59) -/

/-- The timeline's boundary for the frame start now due: what its handling left or leaves (R78, log 6). -/
def State.boundaryNow (s : State) (t : Fin 4) : Bool :=
  if s.isAhead (.timeline t) then s.timelines[t].shown.boundary else s.timelines[t].frame.shown.boundary

/-- The timelines that the flip test of `f` reads: those that a data layer of the LOADED page names beside `f` (R58). -/
def PageTable.flipTimelines (t : PageTable) (f : Fin 4) : List (Fin 4) :=
  match t.loadedRecord with
  | none => []
  | some p => (List.finRange 4).filter fun n => p.layers.any fun l => l.fieldSet == some f && l.timeline == some n

/-- The timeline condition, read off a boundary for each timeline (R58). -/
def PageTable.timelinesAtBoundary (t : PageTable) (f : Fin 4) (boundary : Fin 4 → Bool) : Bool :=
  (t.flipTimelines f).all boundary

/-- A field set flips at the frame start now due: it has a pending bank, and the timeline and holder conditions hold (R58). -/
def State.flips (s : State) (f : Fin 4) (boundary : Fin 4 → Bool) : Bool :=
  (s.store.sets[f].findRole .pending).isSome && s.pages.timelinesAtBoundary f boundary && !s.render.holds f

/-- The flip: the pending bank is live, and the other bank is staging with an empty map (R59). -/
def FieldSet.flip (f : FieldSet) : FieldSet :=
  match f.findRole .pending with
  | none => f
  | some second =>
    (f.setBank second { f.bank second with role := .live }).setBank (!second)
      { f.bank (!second) with role := .staging, written := [] }

/-- The BANK_LIVE notice of a flip of `f`: the bank now live (R59). -/
def FieldSet.liveNotice (fs : FieldSet) (f : Fin 4) : List Notice :=
  match fs.findRole .pending with
  | none => []
  | some second => [.bankLive f second]

/-- The timelines that the flip test of `f` reads handle the frame start that has been entered, ahead of the rest, so that the
boundaries it finds are those for the frame (R58, R78, log 6). -/
def State.timelinesBeforeFlip (s : State) (f : Fin 4) : State := (s.pages.flipTimelines f).foldl State.timelineAhead s

/-- FLIP: a field set whose conditions hold flips at the frame start now due, ahead of the rest but for the timelines that its test
reads (R58, R59, log 6). -/
def execFlip (f : Fin 4) (s : State) : Host.Outcome State Fault Refusal :=
  .next <|
    if s.flips f s.boundaryNow && !s.isAhead (.flip f) then
      let s := s.enterFrame.timelinesBeforeFlip f
      ((s.setFieldSet f s.store.sets[f].flip).markAhead (.flip f)).notifyAll .forecast (s.store.sets[f].liveNotice f)
    else s

/-! ### Deferred writes (R63, R65, R66) -/

/-- A deferred write carried out in the data store (R63, R65). -/
def FieldStore.apply (f : FieldStore) : DeferredWrite → FieldStore
  | .list l records _ => { f with lists := f.lists.set l records }
  | .symbol id codes => { f with symbols := f.symbols.set id codes }

/-- The status of the eventual reply: ADJUSTED for a LIST WRITE whose figures were clamped (R66). -/
def DeferredWrite.status : DeferredWrite → Status
  | .list _ _ adjusted => okOr adjusted
  | .symbol _ _ => .ok

/-- Application: every waiting write is carried out, leaves the queue and is answered on the forecast link (R66). -/
def State.applyDeferred (s : State) : State :=
  match s.render.deferred with
  | [] => s
  | w :: rest =>
    ((s.setStore (s.store.apply w)).setRender { s.render with deferred := rest }).finish .forecast w.status []

/-- The write enters the queue; with no job in flight it is applied at once (R66). -/
def State.deferWrite (s : State) (w : DeferredWrite) : State :=
  let s := s.setRender { s.render with deferred := s.render.deferred ++ [w] }
  if s.render.job.isNone then s.applyDeferred else s

/-- LIST WRITE in its slot (R63). -/
def ownListWrite (p : Packet) (s : State) : State :=
  let count := fieldNat p.payload 0 1
  match indexOf 8 p.arg.toNat, parseAll parsePlacement (records 10 count (p.payload.drop 1)) with
  | some l, some rs =>
    if 48 < count then s.finish p.link .range []
    else s.deferWrite (.list l (rs.map (·.1)) (rs.any (·.2)))
  | _, _ => s.finish p.link .range []

/-- LIST WRITE (R63). -/
def execListWrite (p : Packet) (s : State) : Host.Outcome State Fault Refusal :=
  .next (serve .listWrite p ownListWrite s)

/-- The symbol id: short argument x 16 + the first payload byte (R185). -/
def symbolId (p : Packet) : Nat := p.arg.toNat * 16 + fieldNat p.payload 0 1

/-- SYMBOL WRITE in its slot (R65). -/
def ownSymbolWrite (p : Packet) (s : State) : State :=
  match indexOf 64 (symbolId p) with
  | none => s.finish p.link .range []
  | some id => s.deferWrite (.symbol id (fieldBytes p.payload 1 256))

/-- SYMBOL WRITE (R65). -/
def execSymbolWrite (p : Packet) (s : State) : Host.Outcome State Fault Refusal :=
  .next (serve .symbolWrite p ownSymbolWrite s)

/-- DEFERRED_WRITE_APPLY: a waiting write is applied once no job is in flight (R66, log 8). -/
def execDeferredWriteApply (s : State) : Host.Outcome State Fault Refusal :=
  .next (if s.render.job.isNone then s.applyDeferred else s)

end Sys2Proof.Machine
end

