-- ==== Sys2Proof/Machine/Evaluation.lean ====
section
/-! DEFINITION. The evaluation unit (chapter 6): the blend, values in time and in space, bands, magnitudes, sectors, glyph records.
It keeps no state (R93), so it is functions alone.
Every division is a floor division by a positive number. -/

namespace Sys2Proof.Machine

/-! ### The blend and the position (R79, R94, R95) -/

/-- The blend of two integers by a weight in 0..256 (R94). -/
def blend (a b : Int) (w : Nat) : Int := a + ((b - a) * (w : Int) + 128) / 256

/-- The position for a frame: origin slot, destination slot, fraction (R79). -/
structure Position where
  origin : Nat
  destination : Nat
  fraction : Nat
  deriving DecidableEq, Repr

/-- The position of a layer that names a timeline, from the timeline's values for the frame and the field set's slot count (R79). -/
def TimelineValues.position (v : TimelineValues) (slots : Nat) : Position :=
  let origin := min v.s (slots - 1)
  if v.boundary then ⟨origin, origin, 0⟩
  else ⟨origin, if v.reverse then min (v.s - 1) (slots - 1) else min (v.s + 1) (slots - 1), v.q⟩

/-- The position of a layer with a fixed slot: served at min(fixed slot, slots - 1) with fraction 0 (R35). -/
def fixedPosition (slot slots : Nat) : Position := ⟨min slot (slots - 1), min slot (slots - 1), 0⟩

/-- A stored value of a node: the `quantity`-th value of node (i, j) in a slot (R52). -/
def Bank.node (b : Bank) (g : Geometry) (slot i j quantity : Nat) : Int :=
  (Mem.read rowDefault b.values (rowKey slot j)).getD (i * g.kind.arity + quantity) 0

/-- The value of a node for the frame (R95). -/
def Bank.nodeNow (b : Bank) (g : Geometry) (pos : Position) (i j quantity : Nat) : Int :=
  blend (b.node g pos.origin i j quantity) (b.node g pos.destination i j quantity) pos.fraction

/-! ### Values in space (R97-R99) -/

/-- A grid cell and the weights in it. -/
structure GridCell where
  i : Nat
  fx : Nat
  j : Nat
  fy : Nat
  deriving DecidableEq, Repr

/-- The cell of one axis and its weight, for an offset from the origin (R97). -/
def axisCell (off spacing count : Nat) : Nat × Nat :=
  let i := min (off / spacing) (count - 2)
  (i, (off - i * spacing) * 256 / spacing)

/-- The cell of a chart point, or none for a point outside the grid's extent (R97). -/
def Geometry.cell (g : Geometry) (cx cy : Nat) : Option GridCell :=
  if g.x0 ≤ cx ∧ cx - g.x0 ≤ (g.columns - 1) * g.spacing ∧ g.y0 ≤ cy ∧ cy - g.y0 ≤ (g.rows - 1) * g.spacing then
    let x := axisCell (cx - g.x0) g.spacing g.columns
    let y := axisCell (cy - g.y0) g.spacing g.rows
    some ⟨x.1, x.2, y.1, y.2⟩
  else none

/-- The height at an inside point, first across and then down (R98). -/
def Bank.height (b : Bank) (g : Geometry) (pos : Position) (c : GridCell) : Int :=
  let top := blend (b.nodeNow g pos c.i c.j 0) (b.nodeNow g pos (c.i + 1) c.j 0) c.fx
  let bottom := blend (b.nodeNow g pos c.i (c.j + 1) 0) (b.nodeNow g pos (c.i + 1) (c.j + 1) 0) c.fx
  blend top bottom c.fy

/-- The palette index of a shading pixel (R99). -/
def shadeIndex (h base : Int) (step first : Nat) : Nat :=
  min (first + (clampInt ((h - base) / (step : Int)) 0 15).toNat) 31

/-! ### Magnitude and sector (R100-R103) -/

/-- The magnitude of a vector (R100). -/
def magnitude (u v : Int) : Nat := max u.natAbs v.natAbs + 3 * min u.natAbs v.natAbs / 8

/-- The offset j from the nearer axis (R101, Table 6-4). -/
def axisOffset (major minor : Nat) : Nat :=
  if minor * 256 < 25 * major then 0
  else if minor * 256 < 78 * major then 1
  else if minor * 256 < 137 * major then 2
  else if minor * 256 < 210 * major then 3
  else 4

/-- The sector toward which a vector points; none for a vector with both components 0 (R102, Table 6-5). -/
def sectorOf (u v : Int) : Option Nat :=
  let a := u.natAbs
  let b := v.natAbs
  if a = 0 ∧ b = 0 then none
  else
    let j := axisOffset (max a b) (min a b)
    some <|
      if 0 ≤ u then
        (if 0 ≤ v then (if b ≤ a then 8 - j else j) else (if b ≤ a then 8 + j else 16 - j))
      else
        (if v < 0 then (if b ≤ a then 24 - j else 16 + j) else (if b ≤ a then 24 + j else (32 - j) % 32))

/-- The sector sines (Table 6-6). -/
def sineTable : List Int := [0, 50, 98, 142, 181, 213, 237, 251, 256]

/-- S[t] (Table 6-6). -/
def sineAt (t : Nat) : Int := sineTable.getD t 0

/-- C[t] means S[8 - t] (R103). -/
def cosineAt (t : Nat) : Int := sineAt (8 - t)

/-- The direction pair of a sector (R103). -/
def direction (k : Nat) : Int × Int :=
  if k ≤ 8 then (sineAt k, -cosineAt k)
  else if k ≤ 16 then (sineAt (16 - k), cosineAt (16 - k))
  else if k ≤ 24 then (-sineAt (k - 16), cosineAt (k - 16))
  else (-sineAt (32 - k), -cosineAt (32 - k))

/-- The offset of the point at distance `d` along a sector (R103). -/
def offsetAlong (k d : Nat) : Int × Int :=
  (((d : Int) * (direction k).1 + 128) / 256, ((d : Int) * (direction k).2 + 128) / 256)

/-! ### Glyph records (R104-R108) -/

/-- The barb speed in knots (R104). -/
def barbSpeed (m : Nat) : Nat := min ((m + 25) / 50 * 5) 150

/-- A glyph record of a WIND_BARBS node (R108). -/
inductive BarbGlyph where
  | calm
  | wind (source pennants full half : Nat)
  deriving DecidableEq, Repr

/-- The barb of a node with blended components u and v (R104, R105).
A node with a speed above 0 has a sector. -/
def barbGlyph (u v : Int) : BarbGlyph :=
  let r := barbSpeed (magnitude u v)
  match r, sectorOf u v with
  | 0, _ => .calm
  | _, none => .calm
  | _, some k => .wind ((k + 16) % 32) (r / 50) (r % 50 / 10) (r % 50 % 10 / 5)

/-- A glyph record of a STREAM_ARROWS node (R108). -/
inductive ArrowGlyph where
  | slack
  | flowing (sector length : Nat) (overscale : Bool)
  deriving DecidableEq, Repr

/-- The arrow of a node with blended components u and v (R106, R107). -/
def arrowGlyph (u v : Int) (gain threshold : Nat) : ArrowGlyph :=
  let m := magnitude u v
  match sectorOf u v with
  | none => .slack
  | some k =>
    if m < threshold then .slack
    else
      let raw := m * gain / 256
      .flowing k (clampNat raw 6 60) (decide (60 < raw))

end Sys2Proof.Machine
end

