-- ==== Sys2Proof/Machine/Drawing.lean ====
section
/-! DEFINITION. What a render job draws (R115-R125): its drawing items in order, the tile each asks for, and the pixels each
writes. -/

namespace Sys2Proof.Machine

/-! ### Lines, dots and circles (R117) -/

/-- A screen point; it may lie outside the active raster (R117). -/
abbrev Point := Int × Int

/-- The sum of a point and an offset. -/
def Point.plus (p d : Point) : Point := (p.1 + d.1, p.2 + d.2)

/-- The pixels of a segment (R117). -/
def segment (p q : Point) : List Point :=
  let dx := q.1 - p.1
  let dy := q.2 - p.2
  let n := max dx.natAbs dy.natAbs
  if n = 0 then [p]
  else (List.range (n + 1)).map fun t =>
    (p.1 + (2 * dx * t + n) / (2 * n : Nat), p.2 + (2 * dy * t + n) / (2 * n : Nat))

/-- The square of width `w` that a pixel of a segment covers (R117). -/
def square (w : Nat) (p : Point) : List Point :=
  (List.range w).flatMap fun b => (List.range w).map fun a =>
    (p.1 - ((w - 1) / 2 : Nat) + a, p.2 - ((w - 1) / 2 : Nat) + b)

/-- A segment of width `w` (R117). -/
def wideSegment (w : Nat) (p q : Point) : List Point := (segment p q).flatMap (square w)

/-- A polyline as a chain of segments; one vertex covers the single square at it (R119). -/
def polyline (w : Nat) : List Point → List Point
  | [] => []
  | [p] => square w p
  | p :: q :: rest => wideSegment w p q ++ (match rest with | [] => [] | _ => polyline w (q :: rest))

/-- The offsets within `r` of 0 on each axis. -/
def offsetsWithin (r : Nat) : List Point :=
  (List.range (2 * r + 1)).flatMap fun b => (List.range (2 * r + 1)).map fun a => ((a : Int) - r, (b : Int) - r)

/-- The slack dot round an anchor (R122). -/
def dot (p : Point) : List Point :=
  ((offsetsWithin 2).filter fun d => decide (d.1 * d.1 + d.2 * d.2 ≤ 4)).map p.plus

/-- The calm circle round an anchor (R123). -/
def circle (p : Point) : List Point :=
  ((offsetsWithin 5).filter fun d =>
    decide (16 < d.1 * d.1 + d.2 * d.2) && decide (d.1 * d.1 + d.2 * d.2 ≤ 25)).map p.plus

/-! ### Glyphs (R122, R123) -/

/-- The point at distance `d` from `p` along a sector (R103). -/
def Point.along (p : Point) (sector d : Nat) : Point := p.plus (offsetAlong sector d)

/-- An arrow head at a point of the shaft of an arrow of sector `k` (R122). -/
def arrowHead (p : Point) (k : Nat) : List Point :=
  segment p (p.along ((k + 13) % 32) 8) ++ segment p (p.along ((k + 19) % 32) 8)

/-- The pixels of a flowing arrow: shaft, head, and a second head where it is overscale (R122). -/
def arrow (p : Point) (k length : Nat) (overscale : Bool) : List Point :=
  segment p (p.along k length) ++ arrowHead (p.along k length) k ++
    (if overscale then arrowHead (p.along k (length - 6)) k else [])

/-- An element of a barb (R105). -/
inductive BarbElement where
  | pennant
  | full
  | half
  deriving DecidableEq, Repr

/-- The elements of a barb, pennants first, then full barbs, then the half barb (R123). -/
def barbElements (pennants full half : Nat) : List BarbElement :=
  List.replicate pennants .pennant ++ List.replicate full .full ++ List.replicate half .half

/-- How much less the next attachment distance is (R123). -/
def BarbElement.pitch : BarbElement → Int
  | .pennant => 6
  | .full => 5
  | .half => 0

/-- The elements with their attachment distances, from the given distance inward (R123). -/
def attach (d : Int) : List BarbElement → List (BarbElement × Int)
  | [] => []
  | e :: rest => (e, d) :: attach (d - e.pitch) rest

/-- The amount by which every distance is raised: the shortfall of the last element's distance below 0 (R123). -/
def shortfall (es : List (BarbElement × Int)) : Nat :=
  match es.getLast? with
  | none => 0
  | some e => (-e.2).toNat

/-- One element of a barb at distance `d` of a staff in sector `f`, leaning in sector f + 8 (R123). -/
def barbElement (p : Point) (f d : Nat) (e : BarbElement) : List Point :=
  let g := (f + 8) % 32
  let at' := p.along f d
  match e with
  | .full => segment at' (at'.along g 12)
  | .half => segment at' (at'.along g 6)
  | .pennant => (List.range 7).flatMap fun t => segment (p.along f (d - t)) (at'.along g 12)

/-- The pixels of a wind barb (R123). -/
def barb (p : Point) (f pennants full half : Nat) : List Point :=
  let es := attach 30 (barbElements pennants full half)
  let up := shortfall es
  segment p (p.along f (30 + up)) ++ es.flatMap fun e => barbElement p f (e.2 + (up : Int)).toNat e.1

/-! ### Figures and symbols (R124, R125) -/

/-- A bar of a figure glyph: its columns and rows within the cell (R125). -/
structure Bar where
  c0 : Nat
  c1 : Nat
  r0 : Nat
  r1 : Nat
  deriving DecidableEq, Repr

/-- The seven bars of R125. -/
def barTop : Bar := ⟨2, 9, 0, 1⟩
def barUpperRight : Bar := ⟨10, 11, 2, 8⟩
def barLowerRight : Bar := ⟨10, 11, 11, 17⟩
def barBottom : Bar := ⟨2, 9, 18, 19⟩
def barLowerLeft : Bar := ⟨0, 1, 11, 17⟩
def barUpperLeft : Bar := ⟨0, 1, 2, 8⟩
def barMiddle : Bar := ⟨2, 9, 9, 10⟩

/-- The bars of a digit (R125). -/
def digitBars : Nat → List Bar
  | 0 => [barTop, barUpperRight, barLowerRight, barBottom, barLowerLeft, barUpperLeft]
  | 1 => [barUpperRight, barLowerRight]
  | 2 => [barTop, barUpperRight, barMiddle, barLowerLeft, barBottom]
  | 3 => [barTop, barUpperRight, barMiddle, barLowerRight, barBottom]
  | 4 => [barUpperLeft, barMiddle, barUpperRight, barLowerRight]
  | 5 => [barTop, barUpperLeft, barMiddle, barLowerRight, barBottom]
  | 6 => [barTop, barLowerRight, barBottom, barLowerLeft, barUpperLeft, barMiddle]
  | 7 => [barTop, barUpperRight, barLowerRight]
  | 8 => [barTop, barUpperRight, barLowerRight, barBottom, barLowerLeft, barUpperLeft, barMiddle]
  | _ => [barTop, barUpperRight, barLowerRight, barBottom, barUpperLeft, barMiddle]

/-- The pixels of a bar within its cell. -/
def Bar.pixels (b : Bar) : List Point :=
  (List.range (b.r1 + 1 - b.r0)).flatMap fun r => (List.range (b.c1 + 1 - b.c0)).map fun c =>
    (((b.c0 + c : Nat) : Int), ((b.r0 + r : Nat) : Int))

/-- The decimal digits of a number below 10,000, with no leading zeros, 0 as one digit (R125). -/
def decimalDigits (n : Nat) : List Nat :=
  if n < 10 then [n]
  else if n < 100 then [n / 10, n % 10]
  else if n < 1000 then [n / 100, n / 10 % 10, n % 10]
  else [n / 1000, n / 100 % 10, n / 10 % 10, n % 10]

/-- The bars of each character of a figure, the minus glyph first where it is negative (R125). -/
def figureGlyphs (v : Int) : List (List Bar) :=
  (if v < 0 then [[barMiddle]] else []) ++ (decimalDigits v.natAbs).map digitBars

/-- The pixels of glyphs in cells 14 pixels apart, the first cell's top left at `p` (R125). -/
def glyphRow (p : Point) : List (List Bar) → List Point
  | [] => []
  | g :: rest => (g.flatMap fun b => b.pixels.map p.plus) ++ glyphRow (p.1 + 14, p.2) rest

/-- The pixels of a figure beside a symbol at `p` (R125). -/
def figure (p : Point) (v : Int) : List Point := glyphRow (p.1 + 20, p.2 - 10) (figureGlyphs v)

/-- The two-bit code of a symbol bitmap at a row and a column; four codes to a byte, the earliest in bits 7 and 6 (R64, R181). -/
def symbolCode (codes : List Byte) (row col : Nat) : Nat :=
  (codes.getD ((row * 32 + col) / 4) 0).toNat / 4 ^ (3 - (row * 32 + col) % 4) % 4

/-- A pixel and the palette index to write there. -/
abbrev Paint := Point × Nat

/-- The same index on every pixel of a list. -/
def paintAll (index : Nat) (ps : List Point) : List Paint := ps.map fun p => (p, index)

/-- What a symbol code paints at a pixel: 0 nothing, 1 the outline index, 2 the body index, 3 index 31 (R64). -/
def codePaint (body outline code : Nat) (p : Point) : List Paint :=
  match code with
  | 0 => []
  | 1 => [(p, outline)]
  | 2 => [(p, body)]
  | _ => [(p, 31)]

/-- The bitmap of a placement centred at `p` (R124). -/
def bitmapPaint (codes : List Byte) (r : Placement) (p : Point) : List Paint :=
  (List.range 32).flatMap fun row => (List.range 32).flatMap fun col =>
    codePaint r.body r.outline (symbolCode codes row col) (p.1 - 16 + col, p.2 - 16 + row)

/-- A placement: its bitmap, then its figure (R124). -/
def placementPaint (codes : List Byte) (r : Placement) (p : Point) : List Paint :=
  bitmapPaint codes r p ++
    (match r.figure with
      | none => []
      | some v => paintAll r.body (figure p v))

/-! ### Drawing items (R115, R116, R118-R121, R124) -/

/-- One piece of a job's drawing: the background, one pixel of a land fill or a shading, the lines of one tile, one node, or one
placement (log 9). -/
inductive DrawItem where
  | background
  | land (px py : Nat) (c : CoastLayer)
  | coastTile (tile : Nat) (c : CoastLayer)
  | shade (px py : Nat) (c : ShadeLayer)
  | stream (i j : Nat) (c : ArrowLayer)
  | wind (i j : Nat) (c : BarbLayer)
  | symbol (r : Placement)
  deriving DecidableEq, Repr

/-- The pixels of the screen window in raster order (R120; R153 for the land fill, log 10). -/
def Viewport.pixels (v : Viewport) : List (Nat × Nat) :=
  (List.range v.sh).flatMap fun r => (List.range v.sw).map fun c => (v.sx0 + c, v.sy0 + r)

/-- The nodes that a glyph layer takes: row by row, each coordinate a multiple of the stride (R121). -/
def Geometry.nodes (g : Geometry) (stride : Nat) : List (Nat × Nat) :=
  (List.range g.rows).flatMap fun j => (List.range g.columns).filterMap fun i =>
    if i % stride = 0 ∧ j % stride = 0 then some (i, j) else none

/-- The captured geometry of a field set, if it was captured with the kind that a layer needs (R116). -/
def Job.geometryOf (j : Job) (f : Fin 4) (k : FieldKind) : Option Geometry :=
  match j.captured[f] with
  | none => none
  | some c => if c.geometry.kind = k then some c.geometry else none

/-- The captured phase of an optional blink generator, ON where there is none (R116). -/
def Job.phaseOn (j : Job) (b : Option (Fin 4)) : Bool :=
  match b with
  | none => true
  | some n => j.phases[n]

/-- The items of one layer; a skipped layer has none (R116). -/
def Job.layerItems (j : Job) (lists : Vector (List Placement) 8) : Layer → List DrawItem
  | .coast c =>
    j.record.view.pixels.map (fun p => .land p.1 p.2 c) ++ j.record.view.tiles.map (fun t => .coastTile t c)
  | .tideShade c =>
    match j.geometryOf c.fieldSet .tide with
    | none => []
    | some _ => j.record.view.pixels.map (fun p => .shade p.1 p.2 c)
  | .streamArrows c =>
    match j.geometryOf c.fieldSet .tide with
    | none => []
    | some g => if j.phaseOn c.blink then (g.nodes c.stride).map (fun n => .stream n.1 n.2 c) else []
  | .windBarbs c =>
    match j.geometryOf c.fieldSet .wind with
    | none => []
    | some g => if j.phaseOn c.blink then (g.nodes c.stride).map (fun n => .wind n.1 n.2 c) else []
  | .symbols l => lists[l].map .symbol

/-- Everything a job draws, in order: the background, then the layers of its record in list order (R115, R116). -/
def Job.items (j : Job) (lists : Vector (List Placement) 8) : List DrawItem :=
  .background :: j.record.layers.flatMap (j.layerItems lists)

/-! ### Requests to the coastline store (R118-R121, R126) -/

/-- A request of the job to the coastline store, naming a tile. -/
inductive TileRequest where
  /-- A land query for a mask cell of the tile (R141). -/
  | land (tile mx my : Nat)
  /-- A polyline request (R119). -/
  | lines (tile : Nat)
  deriving DecidableEq, Repr

/-- The tile that a request names. -/
def TileRequest.tile : TileRequest → Nat
  | .land t _ _ => t
  | .lines t => t

/-- The land query for a chart point (R141). -/
def landQuery (cx cy : Nat) : TileRequest :=
  .land (cy / 4096 * 16 + cx / 4096) (cx % 4096 / 32) (cy % 4096 / 32)

/-- The chart point of a node (R52). -/
def Geometry.nodePoint (g : Geometry) (i j : Nat) : Nat × Nat := (g.x0 + i * g.spacing, g.y0 + j * g.spacing)

/-- The screen anchor of a node (R121). -/
def Job.anchor (j : Job) (g : Geometry) (a b : Nat) : Point :=
  j.record.view.toScreen (g.nodePoint a b).1 (g.nodePoint a b).2

/-- The anchor lies in the screen window (R121). -/
def Job.anchorIn (j : Job) (g : Geometry) (a b : Nat) : Bool :=
  j.record.view.inWindow (j.anchor g a b).1 (j.anchor g a b).2

/-- The request of a node: a land query where its anchor lies in the window and land suppression is on (R121). -/
def Job.nodeRequest (j : Job) (g : Option Geometry) (a b : Nat) (suppress : Bool) : Option TileRequest :=
  match g with
  | none => none
  | some g =>
    if j.anchorIn g a b && suppress then some (landQuery (g.nodePoint a b).1 (g.nodePoint a b).2) else none

/-- The request that an item puts to the coastline store, if it puts one. -/
def Job.request (j : Job) : DrawItem → Option TileRequest
  | .background => none
  | .land px py _ => some (landQuery (j.record.view.toChart px py).1 (j.record.view.toChart px py).2)
  | .coastTile t _ => some (.lines t)
  | .shade px py c =>
    match j.geometryOf c.fieldSet .tide with
    | none => none
    | some g =>
      let p := j.record.view.toChart px py
      match g.cell p.1 p.2 with
      | none => none
      | some _ => some (landQuery p.1 p.2)
  | .stream a b c => j.nodeRequest (j.geometryOf c.fieldSet .tide) a b c.suppress
  | .wind a b c => j.nodeRequest (j.geometryOf c.fieldSet .wind) a b c.suppress
  | .symbol _ => none

/-- The coastline store's answer to a request: sea or land for a query, polylines of tile-local points for a polyline request. -/
structure Answer where
  land : Bool
  lines : List (List (Nat × Nat))
  deriving DecidableEq, Repr

/-- "Sea with no polylines" (R137). -/
def Answer.sea : Answer := ⟨false, []⟩

/-! ### What an item writes (R118-R125) -/

/-- The position of a layer's slot source for the job (R35, R79). -/
def Job.position (j : Job) (src : SlotSource) (g : Geometry) : Position :=
  match src with
  | .timeline t => j.timelines[t].position g.slots
  | .fixed n => fixedPosition n g.slots

/-- The captured live bank of a field set (R60). -/
def Job.bank (j : Job) (store : FieldStore) (f : Fin 4) : Bank :=
  match j.captured[f] with
  | none => Bank.cleared []
  | some c => store.sets[f].bank c.second

/-- The polylines of a tile, mapped to the screen and drawn (R119). -/
def Job.coastPaint (j : Job) (tile : Nat) (c : CoastLayer) (lines : List (List (Nat × Nat))) : List Paint :=
  lines.flatMap fun l =>
    paintAll c.line (polyline c.width (l.map fun v =>
      j.record.view.toScreen ((tile % 16 * 4096 + v.1 : Nat) : Int) ((tile / 16 * 4096 + v.2 : Nat) : Int)))

/-- A shading pixel: its index where the point lies inside the captured grid (R120). -/
def Job.shadePaint (j : Job) (store : FieldStore) (px py : Nat) (c : ShadeLayer) : List Paint :=
  match j.geometryOf c.fieldSet .tide with
  | none => []
  | some g =>
    let p := j.record.view.toChart px py
    match g.cell p.1 p.2 with
    | none => []
    | some cell =>
      let h := (j.bank store c.fieldSet).height g (j.position c.source g) cell
      [(((px : Int), (py : Int)), shadeIndex h c.base c.step c.first)]

/-- A stream node that is not omitted (R121, R122). -/
def Job.streamPaint (j : Job) (store : FieldStore) (a b : Nat) (c : ArrowLayer) : List Paint :=
  match j.geometryOf c.fieldSet .tide with
  | none => []
  | some g =>
    if j.anchorIn g a b then
      let bank := j.bank store c.fieldSet
      let pos := j.position c.source g
      match arrowGlyph (bank.nodeNow g pos a b 1) (bank.nodeNow g pos a b 2) c.gain c.threshold with
      | .slack => paintAll c.slack (dot (j.anchor g a b))
      | .flowing k length twice => paintAll c.arrow (arrow (j.anchor g a b) k length twice)
    else []

/-- A wind node that is not omitted (R121, R123). -/
def Job.windPaint (j : Job) (store : FieldStore) (a b : Nat) (c : BarbLayer) : List Paint :=
  match j.geometryOf c.fieldSet .wind with
  | none => []
  | some g =>
    if j.anchorIn g a b then
      let bank := j.bank store c.fieldSet
      let pos := j.position c.source g
      match barbGlyph (bank.nodeNow g pos a b 0) (bank.nodeNow g pos a b 1) with
      | .calm => paintAll c.barb (circle (j.anchor g a b))
      | .wind f p full half => paintAll c.barb (barb (j.anchor g a b) f p full half)
    else []

/-- What an item paints over the background, given the coastline store's answer; nothing where a query says land, but the land
fill. -/
def Job.paint (j : Job) (store : FieldStore) (ans : Answer) : DrawItem → List Paint
  | .background => []
  | .land px py c => if ans.land then [(((px : Int), (py : Int)), c.land)] else []
  | .coastTile t c => j.coastPaint t c ans.lines
  | .shade px py c => if ans.land then [] else j.shadePaint store px py c
  | .stream a b c => if ans.land then [] else j.streamPaint store a b c
  | .wind a b c => if ans.land then [] else j.windPaint store a b c
  | .symbol r =>
    if j.phaseOn r.blink then placementPaint store.symbols[r.symbol] r (j.record.view.toScreen r.x r.y) else []

/-- The frame-buffer cells of a painting, clipped to the screen window (R117). -/
def Viewport.clip (v : Viewport) (ps : List Paint) : List (Nat × Nat) :=
  ps.filterMap fun p =>
    if v.inWindow p.1.1 p.1.2 then some (p.1.2.toNat * 1920 + p.1.1.toNat, p.2) else none

/-- The background: the sea index on the screen window and index 0 on every other pixel (R115).
The window is held to the active raster, where R34 keeps it, so that the addresses rise whatever the record says. -/
def PageRecord.background (r : PageRecord) : Mem Nat :=
  if r.sea = pixelDefault then []
  else (List.range (min r.view.sh (1080 - r.view.sy0))).flatMap fun row =>
    (List.range (min r.view.sw (1920 - r.view.sx0))).map fun col =>
      ((r.view.sy0 + row) * 1920 + (r.view.sx0 + col), r.sea)

/-- A frame buffer's contents after an item (R115, R117). -/
def Job.drawInto (j : Job) (store : FieldStore) (ans : Answer) (it : DrawItem) (px : Mem Nat) : Mem Nat :=
  match it with
  | .background => j.record.background
  | _ => Mem.writeAll pixelDefault px (j.record.view.clip (j.paint store ans it))

end Sys2Proof.Machine
end

