-- ==== Sys2Proof/Machine/Faults.lean ====
section
/-! DEFINITION. The fault unit (chapter 9): capture and report of a fault, entering BYPASS, and FAULT READ. -/

namespace Sys2Proof.Machine

/-- A new fault puts the cache in BYPASS: SOFT on a HELD SOFT record (R149). -/
def FaultUnit.escalates (u : FaultUnit) (k : FaultKind) : Bool :=
  match u.record, k.severity with
  | some r, .soft => r.severity == .soft
  | some _, .hard => false
  | none, _ => false

/-- The record after a new fault (R149). -/
def FaultUnit.capture (u : FaultUnit) (k : FaultKind) (tile : Option Nat) (frame : FrameNumber) : FaultUnit :=
  let new : FaultRecord := ⟨k.severity, k, tile, frame⟩
  match u.record with
  | none => { u with record := some new, more := false }
  | some r =>
    match r.severity, k.severity with
    | .soft, .hard => { u with record := some new, more := true }
    | .soft, .soft => { u with more := true, mode := .bypass }
    | .hard, _ => { u with more := true }

/-- Every cache entry invalid (R138). -/
def Chart.flush (c : Chart) : Chart := { c with cache := Vector.replicate 64 none }

/-- A fault is reported: it is captured or flagged, entering BYPASS flushes the cache at that moment, and a FAULT notice goes to the
forecast link (R149, R150, R152). -/
def State.report (s : State) (k : FaultKind) (tile : Option Nat) : State :=
  let t := s.setFault (s.fault.capture k tile s.timing.frame)
  (if s.fault.escalates k then t.setChart t.chart.flush else t).notify .forecast (.fault k tile)

/-- The result of FAULT READ: the record, its absent fields FFh, and the cache mode (R154, R182). -/
def FaultUnit.result (u : FaultUnit) : List Byte :=
  (match u.record with
    | none => 0 :: List.replicate 9 absentByte
    | some r => [1, r.severity.code, r.kind.code] ++ tileBytes r.tile ++ frameBytes r.frame ++ [flagByte u.more]) ++
    [u.mode.code]

/-- The record emptied (R154). -/
def FaultUnit.emptied (u : FaultUnit) : FaultUnit := { u with record := none, more := false }

/-- FAULT READ in its slot (R154). -/
def ownFaultRead (p : Packet) (s : State) : State :=
  (s.setFault s.fault.emptied).finish p.link .ok s.fault.result

/-- FAULT READ (R154). -/
def execFaultRead (p : Packet) (s : State) : Host.Outcome State Fault Refusal :=
  .next (serve .faultRead p ownFaultRead s)

end Sys2Proof.Machine
end

