-- ==== Sys2Proof/Machine/Chart.lean ====
section
/-! DEFINITION. The coastline store (chapter 8): the chart flash, the directory and the tile records, the tile cache, the answer to a
request, the flash commands and their completions. -/

namespace Sys2Proof.Machine

/-! ### Reading the flash (R132) -/

/-- The size of the chart flash (R132). -/
def flashSize : Nat := 16777216

/-- A byte of the chart flash (R132). -/
def Chart.byte (c : Chart) (a : Nat) : Byte := Mem.read flashDefault c.flash a

/-- `n` bytes of the chart flash from address `a` on. -/
def Chart.bytes (c : Chart) (a n : Nat) : List Byte := (List.range n).map fun i => c.byte (a + i)

/-- `n` bytes as a transfer delivers them, with its bit errors (log 11). -/
def Chart.transfer (c : Chart) (a n : Nat) (noise : List Byte) : List Byte :=
  combine (fun x y => x ^^^ y) (c.bytes a n) noise

/-- Bytes written to the flash from address `a` on. -/
def flashWrite (m : Mem Byte) (a : Nat) (bytes : List Byte) : Mem Byte :=
  Mem.writeAll flashDefault m ((List.range bytes.length).map fun i => (a + i, bytes.getD i 0))

/-! ### The directory (R133, Table 12-6) -/

/-- The format mark (Table 12-6). -/
def formatMark : Nat := 0x5A3C0F96

/-- The bytes that a scan reads (R136). -/
def directorySize : Nat := 1542

/-- One directory entry of 6 bytes (Table 12-6). -/
def parseEntry (b : List Byte) : DirEntry := ⟨fieldNat b 0 3, fieldNat b 3 2, fieldFlag b 5⟩

/-- An entry of nonzero length lies in its ranges (R133). -/
def DirEntry.good (e : DirEntry) : Bool :=
  e.length == 0 ||
    (decide (2053 ≤ e.length) && decide (e.length ≤ 6213) && decide (1542 ≤ e.offset) &&
      decide (e.offset + e.length ≤ flashSize))

/-- The 256 entries of a directory's bytes. -/
def directoryEntries (b : List Byte) : List DirEntry := (records 6 256 (b.drop 4)).map parseEntry

/-- A good directory, read from the bytes at addresses 0 to 1,541; none for a bad one (R133). -/
def parseDirectory (b : List Byte) : Option (List DirEntry) :=
  if fieldNat b 0 4 = formatMark ∧ fieldNat b 1540 2 = (crc16 (b.take 1540)).toNat ∧
      (directoryEntries b).all DirEntry.good = true then
    some (directoryEntries b)
  else none

/-! ### Tile records (R134, Table 12-7) -/

/-- `n` vertices of 4 bytes each, and the bytes after them; none where the bytes run out or a coordinate lies outside 0..4095. -/
def parseVertices : Nat → List Byte → Option (List (Nat × Nat) × List Byte)
  | 0, b => some ([], b)
  | n + 1, b =>
    if b.length < 4 ∨ 4095 < fieldNat b 0 2 ∨ 4095 < fieldNat b 2 2 then none
    else match parseVertices n (b.drop 4) with
      | none => none
      | some (vs, rest) => some ((fieldNat b 0 2, fieldNat b 2 2) :: vs, rest)

/-- `n` polylines, each of at least one vertex, and the bytes after them (Table 12-7). -/
def parsePolylines : Nat → List Byte → Option (List (List (Nat × Nat)) × List Byte)
  | 0, b => some ([], b)
  | n + 1, b =>
    if b.length < 2 ∨ fieldNat b 0 2 = 0 then none
    else match parseVertices (fieldNat b 0 2) (b.drop 2) with
      | none => none
      | some (vs, rest) =>
        match parsePolylines n rest with
        | none => none
        | some (ls, rest') => some (vs :: ls, rest')

/-- A fetched record decoded, or none where it fails its check (R134).
The size that the counts imply equals the length read when exactly the trailer is left. -/
def decodeRecord (tile : Nat) (b : List Byte) : Option Tile :=
  if fieldNat b 0 1 ≠ tile % 16 ∨ fieldNat b 1 1 ≠ tile / 16 ∨ 32 < fieldNat b 2050 1 then none
  else match parsePolylines (fieldNat b 2050 1) (b.drop 2051) with
    | none => none
    | some (ls, rest) =>
      if rest.length = 2 ∧ ls.flatten.length ≤ 1024 ∧ beNat rest = (crc16 (b.take (b.length - 2))).toNat then
        some ⟨fieldBytes b 2 2048, ls⟩
      else none

/-- The mark of a mask cell: byte mx div 8 of row my, the lowest mx in bit 7 (R141, Table 12-7). -/
def Tile.isLand (t : Tile) (mx my : Nat) : Bool := (t.mask.getD (my * 16 + mx / 8) 0).getLsbD (7 - mx % 8)

/-! ### The tile cache (R138) -/

/-- A stamp later than that of every valid entry (R138). -/
def nextStamp (cache : Vector (Option CacheEntry) 64) : Nat :=
  cache.toList.foldl (fun acc e => match e with | none => acc | some e => max acc (e.stamp + 1)) 0

/-- The valid entry that holds a tile, by its number (R138). -/
def cacheIndex (cache : Vector (Option CacheEntry) 64) (tile : Nat) : Option Nat :=
  cache.toList.findIdx? fun e => match e with | none => false | some e => e.tile == tile

/-- The valid entry that holds a tile. -/
def cacheEntry (cache : Vector (Option CacheEntry) 64) (tile : Nat) : Option CacheEntry :=
  match cacheIndex cache tile with
  | none => none
  | some i => (cache[i]?).join

/-- The number of the least recently used entry: the earliest stamp of the valid ones (R138). -/
def oldestIndex (cache : Vector (Option CacheEntry) 64) : Nat :=
  (cache.toList.findIdx? fun e =>
    match e with
    | none => false
    | some e => cache.toList.all fun x => match x with | none => true | some x => decide (e.stamp ≤ x.stamp)).getD 0

/-- A record placed in the cache: the lowest-numbered invalid entry, or the least recently used one (R138). -/
def cachePlace (cache : Vector (Option CacheEntry) 64) (tile : Nat) (d : Tile) : Vector (Option CacheEntry) 64 :=
  let e : CacheEntry := ⟨tile, d, true, nextStamp cache⟩
  match cache.toList.findIdx? (fun x => x.isNone) with
  | some i => cache.setIfInBounds i (some e)
  | none => cache.setIfInBounds (oldestIndex cache) (some e)

/-- Any entry holding the tile invalid (R139, R151). -/
def cacheDrop (cache : Vector (Option CacheEntry) 64) (tile : Nat) : Vector (Option CacheEntry) 64 :=
  cache.map fun e => match e with
    | none => none
    | some e => if e.tile = tile then none else some e

/-- The entry of a hit with its last-use stamp refreshed (R138). -/
def cacheTouch (cache : Vector (Option CacheEntry) 64) (tile : Nat) : Vector (Option CacheEntry) 64 :=
  cache.map fun e => match e with
    | none => none
    | some e => if e.tile = tile then some { e with stamp := nextStamp cache } else some e

/-- The entry that holds a tile no longer agrees with its parity (log 15). -/
def cacheCorrupt (cache : Vector (Option CacheEntry) 64) (tile : Nat) : Vector (Option CacheEntry) 64 :=
  cache.map fun e => match e with
    | none => none
    | some e => if e.tile = tile then some { e with parityGood := false } else some e

/-! ### Serving a request (R137, R141, R153) -/

/-- A PROGRAM, ERASE or RESCAN is in flight (R137). -/
def Chart.changing (c : Chart) : Bool :=
  match c.op with
  | none => false
  | some (.read _ _) => false
  | some (.program _ _) => true
  | some (.erase _) => true
  | some (.rescan _) => true

/-- The directory entry of a tile; open sea where there is no image. -/
def Chart.entry (c : Chart) (tile : Nat) : DirEntry :=
  match c.directory with
  | none => ⟨0, 0, false⟩
  | some d => d.getD tile ⟨0, 0, false⟩

/-- The answer that a decoded tile gives to a request (R119, R141). -/
def Tile.answer (t : Tile) : TileRequest → Answer
  | .land _ mx my => ⟨t.isLand mx my, []⟩
  | .lines _ => ⟨false, t.lines⟩

/-- Steps 1 to 3 of R137: the answer without the record, or none where step 4 is reached. -/
def Chart.quickAnswer (c : Chart) (r : TileRequest) : Option Answer :=
  if c.state ≠ .valid ∨ c.changing = true then some Answer.sea
  else if c.bad.contains r.tile then some Answer.sea
  else
    let e := c.entry r.tile
    if e.length = 0 then some ⟨e.allLand, []⟩
    else match r with
      | .land _ _ _ => if e.allLand then some ⟨true, []⟩ else none
      | .lines _ => none

/-- What the store does with a request: it answers, or the record must be fetched (R137). -/
inductive Served where
  | answered (a : Answer)
  | fetch
  deriving DecidableEq, Repr

/-- Step 4 of R137 in NORMAL: a hit is used and refreshed; a hit with bad parity is invalidated and reported, and the record fetched
(R151). -/
def State.serveCached (s : State) (r : TileRequest) : State × Served :=
  match cacheEntry s.chart.cache r.tile with
  | none => (s, .fetch)
  | some e =>
    if e.parityGood then
      (s.setChart { s.chart with cache := cacheTouch s.chart.cache r.tile }, .answered (e.decoded.answer r))
    else
      ((s.setChart { s.chart with cache := cacheDrop s.chart.cache r.tile }).report .cacheParity (some r.tile), .fetch)

/-- Step 4 of R137 in BYPASS: the working tile serves a request for its own tile, and any other request discards it (R153). -/
def State.serveWorking (s : State) (r : TileRequest) : State × Served :=
  match s.chart.working with
  | none => (s, .fetch)
  | some (t, d) =>
    if t = r.tile then (s, .answered (d.answer r)) else (s.setChart { s.chart with working := none }, .fetch)

/-- The store's handling of a request up to the fetch (R137). -/
def State.serveTile (s : State) (r : TileRequest) : State × Served :=
  match s.chart.quickAnswer r with
  | some a => (s, .answered a)
  | none =>
    match s.fault.mode with
    | .normal => s.serveCached r
    | .bypass => s.serveWorking r

/-! ### Outcomes of a fetch (R139, R140) -/

/-- The outcome of a fetch for the job. -/
inductive FetchResult where
  | goesOn (a : Answer)
  | poisoned
  deriving DecidableEq, Repr

/-- A change of store state, with its notice (R135). -/
def State.setStoreState (s : State) (st : StoreState) : State :=
  if s.chart.state = st then s
  else (s.setChart { s.chart with state := st }).notify .forecast (.chartState st)

/-- The record that a fetch of tile `t` delivers (R134). -/
def Chart.fetched (c : Chart) (tile : Nat) (noise : List Byte) : Option Tile :=
  decodeRecord tile (c.transfer (c.entry tile).offset (c.entry tile).length noise)

/-- A record that passes: its tile leaves the suspect list, and it is placed in the cache, or kept as the working tile in BYPASS
(R139, R153). -/
def State.passFetch (s : State) (tile : Nat) (d : Tile) : State :=
  let c := { s.chart with suspect := s.chart.suspect.filter (· ≠ tile) }
  match s.fault.mode with
  | .normal => s.setChart { c with cache := cachePlace c.cache tile d }
  | .bypass => s.setChart { c with working := some (tile, d) }

/-- The most tiles of the suspect list (R139). -/
def suspectLimit : Nat := 8

/-- The most tiles of the bad tile list (R139). -/
def badLimit : Nat := 32

/-- A tile must join the bad tile list: it joins, or the store fails (R139, R140). -/
def State.giveUp (s : State) (tile : Nat) : State × FetchResult :=
  let c := { s.chart with suspect := s.chart.suspect.filter (· ≠ tile) }
  if s.chart.bad.length < badLimit then
    ((s.setChart { c with bad := c.bad ++ [tile], cache := cacheDrop c.cache tile }).report .tileBad (some tile),
      .goesOn Answer.sea)
  else
    ((((s.setChart { c.flush with directory := none }).setStoreState .failed).report .storeFailed none), .poisoned)

/-- A record that fails its check (R139). -/
def State.failFetch (s : State) (tile : Nat) : State × FetchResult :=
  if s.chart.suspect.contains tile then s.giveUp tile
  else if s.chart.suspect.length < suspectLimit then
    ((s.setChart { s.chart with suspect := s.chart.suspect ++ [tile] }).report .tileCheck (some tile), .poisoned)
  else s.giveUp tile

/-- The end of a fetch made for a request: discarded unchecked where a scan, program or erase is in flight (R142), else checked
(R139). -/
def State.endFetch (s : State) (r : TileRequest) (noise : List Byte) : State × FetchResult :=
  if s.chart.state ≠ .valid ∨ s.chart.changing = true then (s, .goesOn Answer.sea)
  else match s.chart.fetched r.tile noise with
    | some d => (s.passFetch r.tile d, .goesOn (d.answer r))
    | none => s.failFetch r.tile

/-! ### The flash port (R142) -/

/-- A FLASH READ in flight waits for the port. -/
def Chart.reading (c : Chart) : Bool :=
  match c.op with
  | some (.read _ _) => true
  | _ => false

/-- The port becomes free at the end of a FLASH READ: the job's waiting fetch takes it (R142). -/
def Chart.endRead (c : Chart) (fetchWaits : Bool) : Chart :=
  { c with op := none, port := if fetchWaits then some .fetch else none }

/-- A waiting FLASH READ takes the port if no fetch has it (R142). -/
def Chart.grantRead (c : Chart) : Chart :=
  match c.port with
  | none => if c.reading then { c with port := some .read } else c
  | some _ => c

/-- The job waits for a fetch (R126). -/
def Render.fetchWaits (r : Render) : Bool :=
  match r.job with
  | none => false
  | some j => j.fetching.isSome

/-! ### Flash commands (R143-R147) -/

/-- The checks that the four flash commands share: CHART_BUSY, then CHART_IN_USE for the three that change the flash, then their own
RANGE check (R143). -/
def State.flashRefusal (s : State) (changes inRange : Bool) : Option Status :=
  if s.chart.op.isSome then some .chartBusy
  else if changes && s.pages.loaded.isSome then some .chartInUse
  else if inRange then none
  else some .range

/-- FLASH READ in its slot: it becomes the operation in flight and takes the port if that is free (R142, R144). -/
def ownFlashRead (p : Packet) (s : State) : State :=
  let a := fieldNat p.payload 0 4
  let n := fieldNat p.payload 4 2
  match s.flashRefusal false (decide (1 ≤ n) && decide (n ≤ 256) && decide (a + n ≤ flashSize)) with
  | some st => s.finish p.link st []
  | none =>
    s.setChart { s.chart with
      op := some (.read a n)
      port := match s.chart.port with
        | none => some .read
        | some u => some u }

/-- FLASH READ (R144). -/
def execFlashRead (p : Packet) (s : State) : Host.Outcome State Fault Refusal :=
  .next (serve .flashRead p ownFlashRead s)

/-- FLASH PROGRAM in its slot (R145). -/
def ownFlashProgram (p : Packet) (s : State) : State :=
  let a := fieldNat p.payload 0 4
  match s.flashRefusal true (a % 256 == 0 && decide (a < flashSize)) with
  | some st => s.finish p.link st []
  | none => s.setChart { s.chart with op := some (.program a (fieldBytes p.payload 4 256)) }

/-- FLASH PROGRAM (R145). -/
def execFlashProgram (p : Packet) (s : State) : Host.Outcome State Fault Refusal :=
  .next (serve .flashProgram p ownFlashProgram s)

/-- FLASH ERASE in its slot (R146). -/
def ownFlashErase (p : Packet) (s : State) : State :=
  let k := fieldNat p.payload 0 2
  match s.flashRefusal true (decide (k ≤ 255)) with
  | some st => s.finish p.link st []
  | none => s.setChart { s.chart with op := some (.erase k) }

/-- FLASH ERASE (R146). -/
def execFlashErase (p : Packet) (s : State) : Host.Outcome State Fault Refusal :=
  .next (serve .flashErase p ownFlashErase s)

/-- Every cache entry invalid and both lists empty (R136, R145, R146). -/
def Chart.forget (c : Chart) : Chart := { c.flush with suspect := [], bad := [] }

/-- CHART RESCAN in its slot: SCANNING with its notice, the cache and the lists emptied, and the scan begins (R136, R147). -/
def ownChartRescan (p : Packet) (s : State) : State :=
  match s.flashRefusal true true with
  | some st => s.finish p.link st []
  | none =>
    (s.setChart { s.chart.forget with directory := none, op := some (.rescan true) }).setStoreState .scanning

/-- CHART RESCAN (R147). -/
def execChartRescan (p : Packet) (s : State) : Host.Outcome State Fault Refusal :=
  .next (serve .chartRescan p ownChartRescan s)

/-! ### Completions (R136, R144-R147) -/

/-- The fetch of a record holds the port, so a scan, program or erase waits (R142). -/
def Chart.portFetching (c : Chart) : Bool := c.port == some .fetch

/-- FLASH_READ_COMPLETE: the transfer of a FLASH READ ends, and its reply carries the bytes (R144). -/
def execFlashReadComplete (noise : List Byte) (s : State) : Host.Outcome State Fault Refusal :=
  .next <|
    match s.chart.op, s.chart.port with
    | some (.read a n), some .read =>
      (s.setChart (s.chart.endRead s.render.fetchWaits)).finish .forecast .ok
        (s.chart.transfer a n noise)
    | _, _ => s

/-- The completion effects of a program or an erase: the cache and the lists emptied, the image invalid, the state UNSCANNED with its
notice (R145, R146). -/
def State.flashChanged (s : State) (flash : Mem Byte) : State :=
  (s.setChart { s.chart.forget with flash := flash, directory := none, op := none }).setStoreState .unscanned

/-- What a page holds after a program: the AND of old and new, with the bits that fail to take left as they were (R132, R145,
log 11). -/
def programmed (old data fails : List Byte) : List Byte :=
  combine (fun x y => x &&& y) old (combine (fun x y => x ||| y) data fails)

/-- The offsets at which the read-back differs from the bytes supplied (R145). -/
def mismatches (data back : List Byte) : List Nat :=
  (List.range data.length).filter fun i => data.getD i 0 ≠ back.getD i 0

/-- FLASH_PROGRAM_COMPLETE: the page is programmed, read back and compared (R145). -/
def execFlashProgramComplete (fails : List Byte) (s : State) : Host.Outcome State Fault Refusal :=
  .next <|
    match s.chart.op with
    | some (.program a data) =>
      if s.chart.portFetching then s
      else
        let back := programmed (s.chart.bytes a 256) data fails
        let t := s.flashChanged (flashWrite s.chart.flash a back)
        match mismatches data back with
        | [] => t.finish .forecast .ok []
        | i :: rest => t.finish .forecast .verifyFailed (bytes2 (rest.length + 1) ++ [byteOf i])
    | _ => s

/-- FLASH_ERASE_COMPLETE: every byte of the sector is FFh (R146). -/
def execFlashEraseComplete (s : State) : Host.Outcome State Fault Refusal :=
  .next <|
    match s.chart.op with
    | some (.erase k) =>
      if s.chart.portFetching then s
      else (s.flashChanged (Mem.clearRange s.chart.flash (k * 65536) 65536)).finish .forecast .ok []
    | _ => s

/-- The end of a scan: a good directory is copied into the image and the store is VALID, a bad one leaves it ABSENT; a bad directory
found for a CHART RESCAN is reported (R136). -/
def State.scanEnds (s : State) (commanded : Bool) (bytes : List Byte) : State :=
  match parseDirectory bytes with
  | some d => (s.setChart { s.chart with directory := some d, op := none }).setStoreState .valid
  | none =>
    let t := (s.setChart { s.chart with directory := none, op := none }).setStoreState .absent
    if commanded then t.report .directoryCheck none else t

/-- SCAN_COMPLETE: a directory scan ends, and a CHART RESCAN is answered with the state reached (R136, R147). -/
def execScanComplete (noise : List Byte) (s : State) : Host.Outcome State Fault Refusal :=
  .next <|
    match s.chart.op with
    | some (.rescan commanded) =>
      if s.chart.portFetching then s
      else
        let t := s.scanEnds commanded (s.chart.transfer 0 directorySize noise)
        if commanded then t.finish .forecast .ok [t.chart.state.code] else t
    | _ => s

end Sys2Proof.Machine
end

