-- ==== Sys2Proof/Machine/Render.lean ====
section
/-! DEFINITION. The render controller (chapter 7): how a job's drawing runs on, the end of a fetch, a job's completion and the work
waiting for it, CACHE RESTORE, and the controller's own steps at a frame start. -/

namespace Sys2Proof.Machine

/-! ### Buffers and the job record -/

/-- A frame buffer by its name. -/
def Render.buffer (r : Render) : BufferId → FrameBuffer
  | .a => r.bufferA
  | .b => r.bufferB

/-- The controller with one frame buffer replaced. -/
def Render.setBuffer (r : Render) (which : BufferId) (v : FrameBuffer) : Render :=
  match which with
  | .a => { r with bufferA := v }
  | .b => { r with bufferB := v }

/-- The state with the job in flight replaced. -/
def State.setJob (s : State) (j : Option Job) : State := s.setRender { s.render with job := j }

/-! ### Work waiting for a gap between jobs (R130, R155) -/

/-- CACHE RESTORE of one link carried out: every entry invalid, the working tile discarded, the mode NORMAL, and the reply carries the
mode before and after (R155). -/
def State.restoreCache (s : State) (l : Link) : State :=
  ((s.setChart { s.chart.flush with working := none }).setFault { s.fault with mode := .normal }).finish l .ok
    [s.fault.mode.code, CacheMode.normal.code]

/-- A CACHE RESTORE that waits in a link's slot is carried out (R130, R155). -/
def State.applyRestore (s : State) (l : Link) : State :=
  if (s.port l).holds .cacheRestore then s.restoreCache l else s

/-- The gap between jobs: a waiting deferred write, then the waiting CACHE RESTOREs (R130, log 8). -/
def State.gapWork (s : State) : State := (s.applyDeferred.applyRestore .forecast).applyRestore .studio

/-- CACHE RESTORE in its slot: carried out at once with no job in flight, else it waits in its slot (R155). -/
def ownCacheRestore (p : Packet) (s : State) : State :=
  if s.render.job.isNone then s.restoreCache p.link else s

/-- CACHE RESTORE (R155). -/
def execCacheRestore (p : Packet) (s : State) : Host.Outcome State Fault Refusal :=
  .next (serve .cacheRestore p ownCacheRestore s)

/-- CACHE_RESTORE_APPLY: a waiting CACHE RESTORE is carried out once no job is in flight (R155, log 8). -/
def execCacheRestoreApply (l : Link) (s : State) : Host.Outcome State Fault Refusal :=
  .next (if s.render.job.isNone then s.applyRestore l else s)

/-! ### Drawing (R126) -/

/-- The job waits for the fetch of a tile, which takes the flash port if that is free (R126, R142). -/
def State.awaitFetch (s : State) (j : Job) (tile : Nat) : State :=
  (s.setJob (some { j with fetching := some tile })).setChart { s.chart with
    port := match s.chart.port with
      | none => some .fetch
      | some u => some u }

/-- An item is drawn with the store's answer, and the job goes on (R126). -/
def State.settle (s : State) (j : Job) (it : DrawItem) (ans : Answer) : State :=
  let b := s.render.buffer j.buffer
  s.setRender { s.render.setBuffer j.buffer { b with pixels := j.drawInto s.store ans it b.pixels } with
    job := some { j with drawn := j.drawn + 1, fetching := none } }

/-- The job draws one item, or comes to wait for the fetch that it needs (R126, R137). -/
def State.drawItem (s : State) (j : Job) (it : DrawItem) : State :=
  match j.request it with
  | none => s.settle j it Answer.sea
  | some r =>
    match s.serveTile r with
    | (t, .answered a) => t.settle j it a
    | (t, .fetch) => t.awaitFetch j r.tile

/-- The job in flight draws the given items in order, up to the first that waits for a fetch. -/
def State.drawItems (s : State) : List DrawItem → State
  | [] => s
  | it :: rest =>
    match s.render.job with
    | none => s
    | some j => if j.fetching.isSome then s else (s.drawItem j it).drawItems rest

/-- The items that the job in flight has still to draw. -/
def State.remaining (s : State) : List DrawItem :=
  match s.render.job with
  | none => []
  | some j => (j.items s.store.lists).drop j.drawn

/-- The job in flight draws until it needs a fetch or is done (log 9). -/
def State.runJob (s : State) : State := s.drawItems s.remaining

/-- The job in flight draws one item, if it waits for nothing (log 9). -/
def State.drawOne (s : State) : State := s.drawItems (s.remaining.take 1)

/-! ### Completion (R127-R129) -/

/-- The job's record becomes absent, the working tile is discarded, and the waiting work is carried out (R128, R129, R153). -/
def State.endJob (s : State) : State :=
  ((s.setJob none).setChart { s.chart with working := none }).gapWork

/-- An unpoisoned completion: the buffer is READY and tagged, unless the page's content has gone (R128).
A job with the announce flag announces its page where the mark names it now, also where other LOADs have taken the mark away and
brought it back since the job started (log 34). -/
def State.completeJob (s : State) (j : Job) : State :=
  let b := s.render.buffer j.buffer
  let b' : FrameBuffer :=
    { b with role := .ready, tag := if j.contentStands then some j.page else none }
  let s := s.setRender (s.render.setBuffer j.buffer b')
  if j.announce ∧ s.render.newlyLoaded = some j.page then
    ((s.setRender { s.render with newlyLoaded := none }).notify .studio (.pageReady j.page)).endJob
  else s.endJob

/-- A poisoned completion: the buffer is FREE, its tag kept, and FRAME_DISCARDED carries the tile (R127, R129). -/
def State.discardJob (s : State) (j : Job) (tile : Nat) : State :=
  let b := s.render.buffer j.buffer
  ((s.setRender (s.render.setBuffer j.buffer { b with role := .free })).notify .studio
    (.frameDiscarded (some tile) j.page j.frame)).endJob

/-- The job in flight waits for no fetch and has drawn every item. -/
def State.jobDone (s : State) : Option Job :=
  match s.render.job with
  | none => none
  | some j =>
    if j.fetching.isNone ∧ (j.items s.store.lists).length ≤ j.drawn then some j else none

/-- JOB_COMPLETE: the job draws what is left and completes; where it first needs a fetch, it does not complete, and the row changes
nothing (R128, log 4). -/
def execJobComplete (s : State) : Host.Outcome State Fault Refusal :=
  .next <|
    let t := s.runJob
    match t.jobDone with
    | some j => t.completeJob j
    | none => s

/-- The fetch that the job in flight waits for: the job, the item, its request and the tile. -/
def State.waitingFetch (s : State) : Option (Job × DrawItem × TileRequest) :=
  match s.render.job with
  | none => none
  | some j =>
    match j.fetching, (j.items s.store.lists)[j.drawn]? with
    | some _, some it =>
      match j.request it with
      | none => none
      | some r => some (j, it, r)
    | _, _ => none

/-- A fetch has ended and the port is free.
A FLASH READ that waits for it comes after every fetch that the job still makes, so the job draws on to its next fetch, which takes the
port first, and the READ takes it where there is none (R126, R142, R153, log 21). -/
def State.afterFetch (s : State) : State :=
  if s.chart.reading then
    let t := s.runJob
    t.setChart t.chart.grantRead
  else s

/-- TILE_FETCH_COMPLETE: the job draws up to the fetch it needs, that fetch ends with its outcome, and the port is free again (R139,
R142); where the job needs no fetch, or a FLASH READ still holds the port, the row changes nothing (log 4). -/
def execTileFetchComplete (noise : List Byte) (s : State) : Host.Outcome State Fault Refusal :=
  .next <|
    let t := s.runJob
    match t.waitingFetch, t.chart.port with
    | some (j, it, r), some .fetch =>
      let e := t.endFetch r noise
      let u := e.1.setChart { e.1.chart with port := none }
      match e.2 with
      | .goesOn a => (u.settle j it a).afterFetch
      | .poisoned => (u.discardJob j r.tile).afterFetch
    | _, _ => s

/-- CACHE_HIT_PARITY_ERROR: the entry that holds the tile no longer agrees with its parity, and the job in flight draws on to the hit
that finds it, which invalidates the entry, reports the fault and begins the refetch (R151, log 15). -/
def execCacheHitParityError (tile : Fin 256) (s : State) : Host.Outcome State Fault Refusal :=
  .next <|
    if s.fault.mode = .normal ∧ s.render.job.isSome ∧ (cacheIndex s.chart.cache tile.val).isSome then
      let m := s.setChart { s.chart with cache := cacheCorrupt s.chart.cache tile.val }
      let t := m.runJob
      if (t.render.job.bind (·.fetching)) = some tile.val then t else m
    else s

/-! ### The frame start (R110-R112) -/

/-- The role of a buffer after the swap at a frame start at which some buffer is READY (R110). -/
def BufferRole.swapped : BufferRole → BufferRole
  | .ready => .front
  | .front => .free
  | .free => .free
  | .rendering => .rendering

/-- A buffer is READY (R110). -/
def Render.hasReady (r : Render) : Bool := r.bufferA.role == .ready || r.bufferB.role == .ready

/-- The swap of R110. -/
def Render.swap (r : Render) : Render :=
  if r.hasReady then
    { r with
      bufferA := { r.bufferA with role := r.bufferA.role.swapped }
      bufferB := { r.bufferB with role := r.bufferB.role.swapped } }
  else r

/-- The swap, and the end of an OUTGOING page where the new front buffer's tag names the LOADED page (R47, R110). -/
def State.swapFrame (s : State) : State :=
  let t := s.setRender s.render.swap
  if s.render.hasReady ∧ t.render.frontTag.isSome ∧ t.render.frontTag = s.pages.loaded then t.endOutgoing else t

/-- The late flag after a frame start (R112); `swapped` says that this frame start swapped, and `loaded` that a page is LOADED. -/
def Render.lateAfter (r : Render) (swapped loaded : Bool) : Bool :=
  match r.job with
  | some _ => true
  | none => r.late && !swapped && loaded

/-- The notice of a frame start's lateness, judged after the swap (R112). -/
def Render.lateNotice (r : Render) (swapped loaded : Bool) : List Notice :=
  if r.late && swapped then [.renderRecovered r.frontTag]
  else match r.job with
    | some j => if r.late then [] else [.renderLate j.page j.frame]
    | none => if r.late && !loaded then [.renderRecovered none] else []

/-- The live bank of a field set with its geometry, absent where it has none (R60, R111). -/
def FieldSet.capture (f : FieldSet) : Option Captured :=
  match f.geometry, f.findRole .live with
  | some g, some second => some ⟨second, g⟩
  | _, _ => none

/-- The buffer that a job starts into: A where both are FREE (R111). -/
def Render.freeBuffer (r : Render) : Option BufferId :=
  if r.bufferA.role = .free then some .a else if r.bufferB.role = .free then some .b else none

/-- The record of a job that starts now (R111). -/
def State.newJob (s : State) (which : BufferId) (p : Fin 16) (rec : PageRecord) : Job where
  buffer := which
  page := p
  record := rec
  frame := s.timing.frame
  timelines := s.timelines.map (·.shown)
  phases := s.blinks.map (·.on)
  captured := Vector.ofFn fun f => if rec.names f then s.store.sets[f].capture else none
  announce := s.render.newlyLoaded == some p
  poisoned := false
  contentStands := true
  drawn := 0
  fetching := none

/-- A job starts, when none is in flight, a page is LOADED and a buffer is FREE (R111). -/
def State.startJob (s : State) : State :=
  match s.render.job, s.pages.loaded, s.pages.loadedRecord, s.render.freeBuffer with
  | none, some p, some rec, some which =>
    let v := s.render.buffer which
    s.setRender { s.render.setBuffer which { v with role := .rendering } with job := some (s.newJob which p rec) }
  | _, _, _, _ => s

end Sys2Proof.Machine
end

