-- ==== Sys2Proof/Machine/Memo.lean ====
section
/-! DEFINITION. The memo unit (chapter 11): MEMO POST, MEMO TAKE, MEMO WITHDRAW and the expiry. -/

namespace Sys2Proof.Machine

/-- The slot in which a link posts and withdraws (R173). -/
def postSlot : Link → MemoDir
  | .forecast => .forecastToStudio
  | .studio => .studioToForecast

/-- The slot from which a link takes (R173). -/
def takeSlot : Link → MemoDir
  | .forecast => .studioToForecast
  | .studio => .forecastToStudio

/-- The link that posts in a slot (R173). -/
def slotPoster : MemoDir → Link
  | .forecastToStudio => .forecast
  | .studioToForecast => .studio

/-- The link that takes from a slot (R173). -/
def slotReceiver : MemoDir → Link
  | .forecastToStudio => .studio
  | .studioToForecast => .forecast

/-- The longest expiry of a memo, in frames (R174). -/
def maxExpiry : Nat := 3000

/-- The countdown of an expiry: 0 means none (R174). -/
def countdownOf (expiry : Nat) : Option Nat := if expiry = 0 then none else some expiry

/-- MEMO POST in its slot (R174): the slot is filled, MEMO_WAITING goes to the receiving link, and the reply to the posting one. -/
def ownMemoPost (p : Packet) (s : State) : State :=
  let d := postSlot p.link
  match s.memoSlot d with
  | some _ => s.finish p.link .slotFull []
  | none =>
    let e := fieldNat p.payload 0 2
    let a := min e maxExpiry
    let body := p.payload.drop 2
    ((s.setMemoSlot d (some ⟨body, countdownOf a⟩)).notify (slotReceiver d)
      (.memoWaiting d body.length (countdownOf a))).finish p.link (okOr (a != e)) (countdownBytes (countdownOf a))

/-- MEMO POST (R174). -/
def execMemoPost (p : Packet) (s : State) : Host.Outcome State Fault Refusal :=
  .next (serve .memoPost p ownMemoPost s)

/-- The result of MEMO TAKE: the body, its length, and the countdown (R175, log 19). -/
def Memo.result (m : Memo) : List Byte := m.body ++ byteOf m.body.length :: countdownBytes m.countdown

/-- MEMO TAKE in its slot (R175). -/
def ownMemoTake (p : Packet) (s : State) : State :=
  match s.memoSlot (takeSlot p.link) with
  | none => s.finish p.link .empty []
  | some m => (s.setMemoSlot (takeSlot p.link) none).finish p.link .ok m.result

/-- MEMO TAKE (R175). -/
def execMemoTake (p : Packet) (s : State) : Host.Outcome State Fault Refusal :=
  .next (serve .memoTake p ownMemoTake s)

/-- MEMO WITHDRAW in its slot (R175). -/
def ownMemoWithdraw (p : Packet) (s : State) : State :=
  match s.memoSlot (postSlot p.link) with
  | none => s.finish p.link .empty []
  | some _ => (s.setMemoSlot (postSlot p.link) none).finish p.link .ok []

/-- MEMO WITHDRAW (R175). -/
def execMemoWithdraw (p : Packet) (s : State) : Host.Outcome State Fault Refusal :=
  .next (serve .memoWithdraw p ownMemoWithdraw s)

/-- A slot after a frame start: its countdown decremented, EMPTY where that reaches 0 (R176). -/
def memoFrame (m : Option Memo) : Option Memo :=
  match m with
  | none => none
  | some v =>
    match v.countdown with
    | none => some v
    | some n => if n ≤ 1 then none else some { v with countdown := some (n - 1) }

/-- The frame start now due expires the memo (R176). -/
def memoExpires (m : Option Memo) : Bool :=
  match m with
  | none => false
  | some v =>
    match v.countdown with
    | none => false
    | some n => decide (n ≤ 1)

/-- MEMO_EXPIRY: a slot whose countdown reaches 0 handles the frame start now due ahead of the rest (R176, log 6). -/
def execMemoExpiry (d : MemoDir) (s : State) : Host.Outcome State Fault Refusal :=
  .next <|
    if memoExpires (s.memoSlot d) && !s.isAhead (.memo d) then
      let s := s.enterFrame
      ((s.setMemoSlot d none).markAhead (.memo d)).notify (slotPoster d) (.memoExpired d)
    else s

end Sys2Proof.Machine
end

