-- ==== Sys2Proof/Machine/Frame.lean ====
section
/-! DEFINITION. The frame start as a whole (R5, R6): every block's handling of frame start n, the notices it queues, and power-on
reset. -/

namespace Sys2Proof.Machine

/-! ### Notices of one frame start (log 7) -/

/-- A notice that a part of a frame start posts on a link. -/
structure Posting where
  part : FramePart
  link : Link
  notice : Notice
  deriving DecidableEq, Repr

/-- The postings in the order in which they are queued: part by part as `order` lists them, then the rest as they came (log 7). -/
def arrange (order : List FramePart) (ps : List Posting) : List Posting :=
  match order with
  | [] => ps
  | h :: rest => ps.filter (fun p => p.part == h) ++ arrange rest (ps.filter (fun p => p.part != h))

/-- The postings queued, each with the frame number current now. -/
def State.queueAll (s : State) (ps : List Posting) : State :=
  ps.foldl (fun acc p => acc.notify p.link p.notice) s

/-- The notices of one part on one link as postings. -/
def postings (part : FramePart) (l : Link) (ns : List Notice) : List Posting := ns.map fun n => ⟨part, l, n⟩

/-! ### The parts -/

/-- The generator's holdover count (R12). -/
def State.holdoverFrame (s : State) : State := if s.isAhead .reference then s else s.setTiming s.timing.holdoverFrame

/-- The notices of the holdover count's end (R12, R13). -/
def State.timingPosts (s : State) : List Posting :=
  if s.timing.holdoverEnds && !s.isAhead .reference then
    postings .reference .forecast [.reference .free] ++ postings .reference .studio [.reference .free]
  else []

/-- The four timelines (R75). -/
def State.timelineFrame (s : State) : State :=
  s.setTimelines (Vector.ofFn fun t => if s.isAhead (.timeline t) then s.timelines[t] else s.timelines[t].frame)

/-- The notices of the four timelines (R77). -/
def State.timelinePosts (s : State) : List Posting :=
  (List.finRange 4).flatMap fun t =>
    if s.isAhead (.timeline t) then [] else postings (.timeline t) .studio (s.timelines[t].frameNotice t)

/-- The four blink generators (R88). -/
def State.blinkFrame (s : State) : State :=
  s.setBlinks (Vector.ofFn fun b => if s.isAhead (.blink b) then s.blinks[b] else s.blinks[b].frame s.timing.began)

/-- A memo slot (R176). -/
def State.memoSlotFrame (s : State) (d : MemoDir) : State :=
  if s.isAhead (.memo d) then s else s.setMemoSlot d (memoFrame (s.memoSlot d))

/-- The two memo slots (R176). -/
def State.memoUnitFrame (s : State) : State :=
  (s.memoSlotFrame .forecastToStudio).memoSlotFrame .studioToForecast

/-- The notice of a memo slot (R176). -/
def State.memoPosts (s : State) (d : MemoDir) : List Posting :=
  if memoExpires (s.memoSlot d) && !s.isAhead (.memo d) then postings (.memo d) (slotPoster d) [.memoExpired d] else []

/-- The output stage's fade or pending cut (R21, R22). -/
def State.fadeFrame (s : State) : State := if s.isAhead .output then s else s.outputFrame

/-- The notice of a change of output state (R27). -/
def outputPosts (before after : OutputState) : List Posting :=
  if after = before then [] else postings .output .studio [.outputState after]

/-- A field set's flip test, after the timelines have handled the frame start (R58). -/
def State.flipFrame (s : State) (f : Fin 4) : State :=
  if s.flips f (fun t => s.timelines[t].shown.boundary) && !s.isAhead (.flip f) then
    s.setFieldSet f s.store.sets[f].flip
  else s

/-- The notice of a field set's flip (R59). -/
def State.flipPosts (s : State) (f : Fin 4) : List Posting :=
  if s.flips f (fun t => s.timelines[t].shown.boundary) && !s.isAhead (.flip f) then
    postings (.flip f) .forecast (s.store.sets[f].liveNotice f)
  else []

/-- The four field sets; each is tested by itself (R58). -/
def State.flipsFrame (s : State) : State := (List.finRange 4).foldl State.flipFrame s

/-- The staged palette becomes the palette (R30). -/
def State.paletteFrame (s : State) : State := s.setOutput { s.output with palette := s.output.staged }

/-- The late flag after the swap (R112). -/
def State.lateFrame (s : State) (swapped : Bool) : State :=
  s.setRender { s.render with late := s.render.lateAfter swapped s.pages.loaded.isSome }

/-- The key enable for the frame (R28). -/
def State.keyFrame (s : State) : State :=
  s.setOutput { s.output with keyEnable := s.frontKeyed, keyDropAt := none }

/-- Every block but the render controller and the key enable has handled the frame start. -/
def State.beforeRender (s : State) : State :=
  (s.holdoverFrame.timelineFrame.blinkFrame.memoUnitFrame.fadeFrame.flipsFrame).paletteFrame

/-- The state once every block has handled the frame start that has been entered, before its notices are queued. -/
def State.framed (s : State) : State :=
  let a := s.beforeRender
  ((a.swapFrame.lateFrame a.render.hasReady).startJob.keyFrame).setAhead []

/-- The notices of the frame start (R13, R27, R59, R77, R112, R176). -/
def State.framePosts (s : State) : List Posting :=
  let t := s.holdoverFrame.timelineFrame
  let a := s.beforeRender
  s.timingPosts ++ s.timelinePosts ++ s.memoPosts .forecastToStudio ++ s.memoPosts .studioToForecast ++
    outputPosts s.output.state a.output.state ++ (List.finRange 4).flatMap t.flipPosts ++
    postings .render .studio (a.swapFrame.render.lateNotice a.render.hasReady a.pages.loaded.isSome)

/-- FRAME_START: the scheduled frame start arrives; the frame number advances, every block handles frame n, and the notices of its
handling carry n (R5, R6).
Where a row has entered this frame start already, what is left of it is handled (log 6). -/
def execFrameStart (order : List FramePart) (s : State) : Host.Outcome State Fault Refusal :=
  .next <|
    let s := s.enterFrame
    s.framed.queueAll (arrange order s.framePosts)

/-! ### Power-on reset (R18, R32, R50, R68, R87, R92, R131, R148, R157, R172, R178) -/

/-- The bytes that a power-on reset during an erase or a program leaves undefined: where they start and how many (R132); none while a
fetch still holds the port, since the operation has not begun (R142). -/
def Chart.damaged (c : Chart) : Nat × Nat :=
  if c.portFetching then (0, 0)
  else match c.op with
    | some (.erase k) => (k * 65536, 65536)
    | some (.program a _) => (a, 256)
    | some (.read _ _) => (0, 0)
    | some (.rescan _) => (0, 0)
    | none => (0, 0)

/-- The flash as the reset leaves it: each damaged byte is a free value (R132, log 12). -/
def Chart.afterReset (c : Chart) (count : Nat) : Mem Byte :=
  flashWrite c.flash c.damaged.1
    ((List.range c.damaged.2).map fun i => Config.freeByte count (c.damaged.1 + i))

/-- A field set after reset: EMPTY, its DRAM kept (R68). -/
def FieldSet.afterReset (f : FieldSet) : FieldSet :=
  ⟨none, Bank.cleared f.bank0.values, Bank.cleared f.bank1.values⟩

/-- The rate that the RATE strap selects: low 50.00, high 59.94 frames/s (R3). -/
def strapRate (high : Bool) : FrameRate := if high then .fps5994 else .fps50

/-- POWER_ON_RESET: every block takes its reset values, and the power-on scan begins; the flash and the DRAM keep their contents
(R18, R68, R131, R132, R148). -/
def execPowerOnReset (rateHigh : Bool) (s : State) : Host.Outcome State Fault Refusal :=
  .next { State.reset with
    timing := Timing.reset (strapRate rateHigh)
    store := { FieldStore.reset with sets := s.store.sets.map FieldSet.afterReset }
    render := { Render.reset with
      bufferA := FrameBuffer.cleared s.render.bufferA.pixels
      bufferB := FrameBuffer.cleared s.render.bufferB.pixels }
    chart := { Chart.reset with flash := s.chart.afterReset s.freeCount }
    freeCount := s.freeCount + 1
    pending := s.pending }

end Sys2Proof.Machine
end

