-- ==== Sys2Proof/Machine/Status.lean ====
section
/-! DEFINITION. STATUS and ECHO (R171). -/

namespace Sys2Proof.Machine

/-- One side of a frame start: a state in which some blocks have handled the frame start now due is carried to its end, so that
"every field comes from the same side of it" (R171, log 6). -/
def State.oneSide (s : State) : State := if s.ahead.isEmpty then s else s.enterFrame.framed

/-- Whether something is there, as one byte (R182). -/
def presentByte {α : Type} (o : Option α) : Byte := flagByte o.isSome

/-- The 34 bytes of the STATUS result (R171, R182). -/
def State.statusBytes (s : State) : List Byte :=
  frameBytes s.timing.frame ++
    [s.timing.refState.code, rateCodeByte s.timing.rate, s.output.state.code, byteOf s.output.level,
      pageByte s.pages.loaded, pageByte s.pages.outgoing, pageByte s.render.frontTag, presentByte s.render.job,
      flagByte s.render.late] ++
    s.timelines.toList.flatMap (fun t => [t.state.code, byteOf t.s] ++ bytes2 t.q) ++
    [s.chart.state.code, s.fault.mode.code, presentByte s.fault.record, presentByte s.memo.forecastToStudio,
      presentByte s.memo.studioToForecast]

/-- STATUS in its slot (R171). -/
def ownStatus (p : Packet) (s : State) : State := s.finish p.link .ok s.oneSide.statusBytes

/-- STATUS (R171). -/
def execStatus (p : Packet) (s : State) : Host.Outcome State Fault Refusal :=
  .next (serve .status p ownStatus s)

/-- ECHO in its slot: its result is its payload unchanged (R171). -/
def ownEcho (p : Packet) (s : State) : State := s.finish p.link .ok p.payload

/-- ECHO (R171). -/
def execEcho (p : Packet) (s : State) : Host.Outcome State Fault Refusal :=
  .next (serve .echo p ownEcho s)

end Sys2Proof.Machine
end

