-- ==== Sys2Proof/Machine/Dispatch.lean ====
section
/-! DEFINITION. The command executor: one arm per constructor of Instr, each one direct call of its meaning. -/

namespace Sys2Proof.Machine

/-- A command's effect on everything but the queue. -/
def exec (i : Instr) (s : State) : Host.Outcome State Fault Refusal :=
  match i with
  | .powerOnReset rateHigh => Sys2Proof.Machine.execPowerOnReset rateHigh s
  | .frameStart order => Sys2Proof.Machine.execFrameStart order s
  | .referencePulse time => Sys2Proof.Machine.execReferencePulse time s
  | .decisionInstant => Sys2Proof.Machine.execDecisionInstant s
  | .holdoverExpiry => Sys2Proof.Machine.execHoldoverExpiry s
  | .nudgeApply => Sys2Proof.Machine.execNudgeApply s
  | .offsetTakesEffect => Sys2Proof.Machine.execOffsetTakesEffect s
  | .pendingCut => Sys2Proof.Machine.execPendingCut s
  | .panicActs => Sys2Proof.Machine.execPanicActs s
  | .flip f => Sys2Proof.Machine.execFlip f s
  | .timelineCommit t => Sys2Proof.Machine.execTimelineCommit t s
  | .blinkCycleEnd b => Sys2Proof.Machine.execBlinkCycleEnd b s
  | .memoExpiry d => Sys2Proof.Machine.execMemoExpiry d s
  | .tileFetchComplete noise => Sys2Proof.Machine.execTileFetchComplete noise s
  | .jobComplete => Sys2Proof.Machine.execJobComplete s
  | .deferredWriteApply => Sys2Proof.Machine.execDeferredWriteApply s
  | .cacheRestoreApply l => Sys2Proof.Machine.execCacheRestoreApply l s
  | .flashReadComplete noise => Sys2Proof.Machine.execFlashReadComplete noise s
  | .flashProgramComplete fails => Sys2Proof.Machine.execFlashProgramComplete fails s
  | .flashEraseComplete => Sys2Proof.Machine.execFlashEraseComplete s
  | .scanComplete noise => Sys2Proof.Machine.execScanComplete noise s
  | .transmitEnd l => Sys2Proof.Machine.execTransmitEnd l s
  | .lineBreak l => Sys2Proof.Machine.execLineBreak l s
  | .lineBreakEnd l => Sys2Proof.Machine.execLineBreakEnd l s
  | .framingError l => Sys2Proof.Machine.execFramingError l s
  | .receiveTimeout l => Sys2Proof.Machine.execReceiveTimeout l s
  | .headerReceived l header => Sys2Proof.Machine.execHeaderReceived l header s
  | .unknownPacket kind p => Sys2Proof.Machine.execUnknownPacket kind p s
  | .status p => Sys2Proof.Machine.execStatus p s
  | .echo p => Sys2Proof.Machine.execEcho p s
  | .faultRead p => Sys2Proof.Machine.execFaultRead p s
  | .cacheRestore p => Sys2Proof.Machine.execCacheRestore p s
  | .memoPost p => Sys2Proof.Machine.execMemoPost p s
  | .memoTake p => Sys2Proof.Machine.execMemoTake p s
  | .memoWithdraw p => Sys2Proof.Machine.execMemoWithdraw p s
  | .gridDefine p => Sys2Proof.Machine.execGridDefine p s
  | .gridRows p => Sys2Proof.Machine.execGridRows p s
  | .gridPublish p => Sys2Proof.Machine.execGridPublish p s
  | .gridStatus p => Sys2Proof.Machine.execGridStatus p s
  | .listWrite p => Sys2Proof.Machine.execListWrite p s
  | .symbolWrite p => Sys2Proof.Machine.execSymbolWrite p s
  | .flashRead p => Sys2Proof.Machine.execFlashRead p s
  | .flashProgram p => Sys2Proof.Machine.execFlashProgram p s
  | .flashErase p => Sys2Proof.Machine.execFlashErase p s
  | .chartRescan p => Sys2Proof.Machine.execChartRescan p s
  | .pageDefine p => Sys2Proof.Machine.execPageDefine p s
  | .pageDelete p => Sys2Proof.Machine.execPageDelete p s
  | .pageRead p => Sys2Proof.Machine.execPageRead p s
  | .load p => Sys2Proof.Machine.execLoad p s
  | .unload p => Sys2Proof.Machine.execUnload p s
  | .take p => Sys2Proof.Machine.execTake p s
  | .clear p => Sys2Proof.Machine.execClear p s
  | .panic p => Sys2Proof.Machine.execPanic p s
  | .paletteWrite p => Sys2Proof.Machine.execPaletteWrite p s
  | .timelineSet p => Sys2Proof.Machine.execTimelineSet p s
  | .timelineSteps p => Sys2Proof.Machine.execTimelineSteps p s
  | .timelineRun p => Sys2Proof.Machine.execTimelineRun p s
  | .timelineStop p => Sys2Proof.Machine.execTimelineStop p s
  | .timelineJump p => Sys2Proof.Machine.execTimelineJump p s
  | .timelineClear p => Sys2Proof.Machine.execTimelineClear p s
  | .blinkSet p => Sys2Proof.Machine.execBlinkSet p s
  | .offset p => Sys2Proof.Machine.execOffset p s
  | .nudge p => Sys2Proof.Machine.execNudge p s
  | .startByte l => Sys2Proof.Machine.execStartByte l s
  | .cacheHitParityError tile => Sys2Proof.Machine.execCacheHitParityError tile s

end Sys2Proof.Machine
end

