-- ==== Sys2Proof/Machine/Tick.lean ====
section
/-! DEFINITION. What passes while no command waits (log 1): one pixel period, up to the next instant at which an event of the block
is due, and one drawing item. -/

namespace Sys2Proof.Machine

/-- The earlier of two instants, the second where it is present. -/
def soonest (a : Nat) (b : Option Nat) : Nat :=
  match b with
  | none => a
  | some v => min a v

/-- The next instant at which an event of the block itself is due: the frame start, the decision instant, and the line start for
which a PANIC waits (R7, R15, R25); while a frame start is being handled, that is the present instant (log 6). -/
def State.dueInstant (s : State) : Nat :=
  if s.ahead.isEmpty then
    soonest (soonest s.timing.frameInstant (s.timing.expected.map (· + s.timing.rate.half)))
      (if s.studio.holds .panic then some s.timing.panicDue else none)
  else s.timing.now

/-- One pixel period passes, unless it would reach the instant of an event that is due (log 1). -/
def State.passPeriod (s : State) : State :=
  if s.timing.now + 1 < s.dueInstant then s.advanceTo (s.timing.now + 1) else s

/-- What a step does on an empty queue: the job in flight draws one item, and one pixel period passes (log 1, log 9). -/
def State.tick (s : State) : State := s.drawOne.passPeriod

end Sys2Proof.Machine
end

