-- ==== Sys2Proof/Machine/Step.lean ====
section
/-! DEFINITION. One step: the command at the front of the queue, or one pixel period where the queue is empty (log 1). -/

namespace Sys2Proof.Machine

/-- The state with its queue of commands replaced. -/
def State.withPending (s : State) (q : List Instr) : State := { s with pending := q }

/-- One step: take the command at the front of the queue and carry it out on the state with the queue's rest; with an empty queue
one pixel period passes (log 1). -/
def step (s : State) : Host.Outcome State Fault Refusal :=
  match s.pending with
  | [] => .next s.tick
  | c :: rest => exec c (s.withPending rest)

/-- The state with the command that a word spells put at the front of its queue; the table gives no row any bits, so no word spells
one and the state is unchanged (log 2). -/
def State.withFetchWord (s : State) (nbits w : Nat) : State :=
  match Sys2Proof.decodeTableWord nbits w with
  | none => s
  | some c => s.withPending (c :: s.pending)

end Sys2Proof.Machine
end

