-- ==== Sys2Proof/WellFormed.lean ====
section
/-! DEFINITION. Which commands can reach the block: payloads no longer than a header allows, kind codes that are no command's, and
transfers no longer than what they transfer. -/

namespace Sys2Proof

/-- The longest payload that a header carries past the receiver (R161). -/
def maxPayload : Nat := 1024

/-- The longest tile record (R134). -/
def maxRecord : Nat := 6213

/-- The bytes that a FLASH READ or a FLASH PROGRAM transfers at most (R144, R145). -/
def maxTransfer : Nat := 256

/-- The bytes that a scan reads (R136). -/
def scanLength : Nat := 1542

/-- A packet that the receiver can deliver (R159, R161): a payload within the limit, its CRC word 0 where no payload carries one. -/
def Packet.wf (p : Packet) : Bool :=
  decide (p.payload.length ≤ maxPayload) && (!p.payload.isEmpty || p.crc == 0)

/-- The command codes of Table 12-2. -/
def commandCodes : List (BitVec 7) :=
  [0x01, 0x02, 0x03, 0x04, 0x05, 0x06, 0x07, 0x10, 0x11, 0x12, 0x13, 0x14, 0x15, 0x18, 0x19, 0x1A, 0x1B, 0x20, 0x21,
    0x22, 0x23, 0x24, 0x28, 0x29, 0x2A, 0x2B, 0x30, 0x31, 0x32, 0x33, 0x34, 0x35, 0x38, 0x3C, 0x3D]

/-- No element occurs twice. -/
def noRepeats (l : List FramePart) : Bool :=
  match l with
  | [] => true
  | h :: rest => !rest.contains h && noRepeats rest

/-- The packet of a packet command. -/
def Instr.packet? (i : Instr) : Option Packet :=
  match i with
  | .unknownPacket _ p => some p
  | .status p => some p
  | .echo p => some p
  | .faultRead p => some p
  | .cacheRestore p => some p
  | .memoPost p => some p
  | .memoTake p => some p
  | .memoWithdraw p => some p
  | .gridDefine p => some p
  | .gridRows p => some p
  | .gridPublish p => some p
  | .gridStatus p => some p
  | .listWrite p => some p
  | .symbolWrite p => some p
  | .flashRead p => some p
  | .flashProgram p => some p
  | .flashErase p => some p
  | .chartRescan p => some p
  | .pageDefine p => some p
  | .pageDelete p => some p
  | .pageRead p => some p
  | .load p => some p
  | .unload p => some p
  | .take p => some p
  | .clear p => some p
  | .panic p => some p
  | .paletteWrite p => some p
  | .timelineSet p => some p
  | .timelineSteps p => some p
  | .timelineRun p => some p
  | .timelineStop p => some p
  | .timelineJump p => some p
  | .timelineClear p => some p
  | .blinkSet p => some p
  | .offset p => some p
  | .nudge p => some p
  | _ => none

/-- The checks of an event's own operands. -/
def Instr.operandsOk (i : Instr) : Bool :=
  match i with
  | .frameStart order => noRepeats order
  | .tileFetchComplete noise => decide (noise.length ≤ maxRecord)
  | .flashReadComplete noise => decide (noise.length ≤ maxTransfer)
  | .flashProgramComplete fails => decide (fails.length ≤ maxTransfer)
  | .scanComplete noise => decide (noise.length ≤ scanLength)
  | .unknownPacket kind _ => !commandCodes.contains kind
  | _ => true

/-- A command that can reach the block. -/
def Instr.wf (i : Instr) : Bool :=
  i.operandsOk && (match i.packet? with | none => true | some p => p.wf)

end Sys2Proof
end

