-- ==== Sys2Proof/Safety.lean ====
section
/-! DEFINITION. What a state of the real part always meets, which blocks a command may change, and which queues of commands follow
the outside world's own order. -/

namespace Sys2Proof.Machine

/-! ### The outside world's order (log 3, log 5) -/

/-- The instant that a command carries, if it carries one (log 3). -/
def commandTime (i : Instr) : Option Nat :=
  match i with
  | .referencePulse t => some t
  | _ => i.packet?.map (·.time)

/-- The command at the front of the queue does not come from the past, and no event of the block itself is overdue before it
(log 3). -/
def State.inOrder (s : State) : Bool :=
  match s.pending with
  | [] => true
  | c :: _ =>
    match commandTime c with
    | none => true
    | some t => decide (s.timing.now ≤ t) && decide (t ≤ s.dueInstant)

/-- A run of well-formed commands. -/
def State.queueWf (s : State) : Bool := s.pending.all Instr.wf

/-! ### Which blocks a command may change -/

/-- The blocks of the state.
The clock, and the key enable that a line start clears (R28), stand apart from the timing generator and the output stage, since
every command that carries an instant moves the clock. -/
inductive Block where
  | clock
  | keyEnable
  | timing
  | output
  | pages
  | store
  | timelines
  | blinks
  | render
  | chart
  | fault
  | memo
  | port (l : Link)
  | ahead
  | freeCount
  | queue
  deriving DecidableEq, Repr

/-- Two states agree on a block. -/
def agree (b : Block) (s t : State) : Prop :=
  match b with
  | .clock => t.timing.now = s.timing.now
  | .keyEnable => t.output.keyEnable = s.output.keyEnable ∧ t.output.keyDropAt = s.output.keyDropAt
  | .timing => t.timing = { s.timing with now := t.timing.now }
  | .output => t.output = { s.output with keyEnable := t.output.keyEnable, keyDropAt := t.output.keyDropAt }
  | .pages => t.pages = s.pages
  | .store => t.store = s.store
  | .timelines => t.timelines = s.timelines
  | .blinks => t.blinks = s.blinks
  | .render => t.render = s.render
  | .chart => t.chart = s.chart
  | .fault => t.fault = s.fault
  | .memo => t.memo = s.memo
  | .port l => t.port l = s.port l
  | .ahead => t.ahead = s.ahead
  | .freeCount => t.freeCount = s.freeCount
  | .queue => t.pending = s.pending

/-- What a packet changes whatever it carries: its instant moves the clock, and its link's port receives and answers it. -/
def packetBlocks (p : Packet) : List Block := [.clock, .keyEnable, .port p.link]

/-- The blocks that a command may change; it leaves every other block as it was. -/
def touched (i : Instr) : List Block :=
  match i with
  | .powerOnReset _ =>
    [.clock, .keyEnable, .timing, .output, .pages, .store, .timelines, .blinks, .render, .chart, .fault, .memo,
      .port .forecast, .port .studio, .ahead, .freeCount]
  | .frameStart _ =>
    [.clock, .keyEnable, .timing, .output, .pages, .store, .timelines, .blinks, .render, .memo, .port .forecast,
      .port .studio, .ahead]
  | .referencePulse _ => [.clock, .keyEnable, .timing, .port .forecast, .port .studio]
  | .decisionInstant => [.clock, .keyEnable, .timing, .port .forecast, .port .studio]
  | .holdoverExpiry => [.clock, .keyEnable, .timing, .port .forecast, .port .studio, .ahead]
  | .nudgeApply => [.clock, .keyEnable, .timing, .ahead]
  | .offsetTakesEffect => [.clock, .keyEnable, .timing, .ahead]
  | .pendingCut => [.clock, .keyEnable, .timing, .output, .pages, .port .studio, .ahead]
  | .panicActs => [.clock, .keyEnable, .timing, .output, .pages, .port .studio, .ahead]
  | .flip _ => [.clock, .keyEnable, .timing, .store, .timelines, .port .forecast, .port .studio, .ahead]
  | .timelineCommit _ => [.clock, .keyEnable, .timing, .timelines, .port .studio, .ahead]
  | .blinkCycleEnd _ => [.clock, .keyEnable, .timing, .blinks, .ahead]
  | .memoExpiry d => [.clock, .keyEnable, .timing, .memo, .port (slotPoster d), .ahead]
  | .tileFetchComplete _ => [.store, .render, .chart, .fault, .port .forecast, .port .studio]
  | .jobComplete => [.store, .render, .chart, .fault, .port .forecast, .port .studio]
  | .cacheHitParityError _ => [.render, .chart, .fault, .port .forecast]
  | .deferredWriteApply => [.store, .render, .port .forecast]
  | .cacheRestoreApply l => [.chart, .fault, .port l]
  | .flashReadComplete _ => [.chart, .port .forecast]
  | .flashProgramComplete _ => [.chart, .port .forecast]
  | .flashEraseComplete => [.chart, .port .forecast]
  | .scanComplete _ => [.chart, .fault, .port .forecast]
  | .transmitEnd l => [.port l]
  | .lineBreak l => [.port l]
  | .lineBreakEnd l => [.port l]
  | .framingError l => [.port l]
  | .receiveTimeout l => [.port l]
  | .headerReceived l _ => [.port l]
  | .startByte l => [.port l]
  | .unknownPacket _ p => packetBlocks p
  | .status p => packetBlocks p
  | .echo p => packetBlocks p
  | .faultRead p => .fault :: packetBlocks p
  | .cacheRestore p => .chart :: .fault :: packetBlocks p
  | .memoPost p => .memo :: .port .forecast :: .port .studio :: packetBlocks p
  | .memoTake p => .memo :: packetBlocks p
  | .memoWithdraw p => .memo :: packetBlocks p
  | .gridDefine p => .store :: packetBlocks p
  | .gridRows p => .store :: packetBlocks p
  | .gridPublish p => .store :: packetBlocks p
  | .gridStatus p => packetBlocks p
  | .listWrite p => .store :: .render :: .port .forecast :: packetBlocks p
  | .symbolWrite p => .store :: .render :: .port .forecast :: packetBlocks p
  | .flashRead p => .chart :: packetBlocks p
  | .flashProgram p => .chart :: packetBlocks p
  | .flashErase p => .chart :: packetBlocks p
  | .chartRescan p => .chart :: .port .forecast :: packetBlocks p
  | .pageDefine p => .pages :: .render :: packetBlocks p
  | .pageDelete p => .pages :: .render :: packetBlocks p
  | .pageRead p => packetBlocks p
  | .load p => .pages :: .render :: packetBlocks p
  | .unload p => .pages :: .render :: packetBlocks p
  | .take p => .output :: .port .studio :: packetBlocks p
  | .clear p => .output :: .port .studio :: packetBlocks p
  | .panic p => .timing :: packetBlocks p
  | .paletteWrite p => .output :: packetBlocks p
  | .timelineSet p => .timelines :: packetBlocks p
  | .timelineSteps p => .timelines :: packetBlocks p
  | .timelineRun p => .timelines :: packetBlocks p
  | .timelineStop p => .timelines :: packetBlocks p
  | .timelineJump p => .timelines :: packetBlocks p
  | .timelineClear p => .timelines :: packetBlocks p
  | .blinkSet p => .blinks :: packetBlocks p
  | .offset p => .timing :: packetBlocks p
  | .nudge p => .timing :: packetBlocks p

/-! ### What always holds -/

/-- The accumulator within 0..65280, 0 in DARK and 65280 in ON_AIR, and the slope 0 or 262..65280, never 0 during a fade (R19,
Table 2-1). -/
abbrev OutputStage.legal (o : OutputStage) : Prop :=
  o.acc ≤ accTop ∧ (o.state = .dark → o.acc = 0) ∧ (o.state = .onAir → o.acc = accTop) ∧
    (o.slope = 0 ∨ (262 ≤ o.slope ∧ o.slope ≤ accTop)) ∧ (o.state = .fadeIn ∨ o.state = .fadeOut → 262 ≤ o.slope)

/-- The LOADED page and the OUTGOING page have content and differ, no page is OUTGOING without a page LOADED, and none in DARK (R33,
R47). -/
abbrev PageTable.legal (t : PageTable) (state : OutputState) : Prop :=
  (∀ p, t.loaded = some p → t.pages[p] ≠ none) ∧ (∀ p, t.outgoing = some p → t.pages[p] ≠ none) ∧
    (t.loaded = none ∨ t.loaded ≠ t.outgoing) ∧ (t.outgoing ≠ none → t.loaded ≠ none) ∧ (state = .dark → t.outgoing = none)

/-- The ranges of R69, R70 and Table 5-1: no fraction and no step frame count unless a step is in progress, which has a counter, a
count below its period and room in the span. -/
abbrev Timeline.legal (t : Timeline) : Prop :=
  1 ≤ t.span ∧ t.span ≤ 25 ∧ t.s < t.span ∧ t.q ≤ 256 ∧ t.counter ≤ 15 ∧ t.queued ≤ 15 ∧
    (t.queued ≠ 0 → t.counter ≠ 0) ∧ t.rate ≤ 7 ∧ (∀ r, t.nextRate = some r → r ≤ 7) ∧ 1 ≤ t.tf ∧ t.tf ≤ 64 ∧
    t.lead ≤ 15 ∧ 1 ≤ t.tr ∧ t.tr ≤ 64 ∧ 8 ≤ t.period ∧ t.period ≤ 50 ∧
    (t.moving = false → t.q = 0 ∧ t.k = 0 ∧ t.nextRate = none) ∧
    (t.moving = true → 1 ≤ t.k ∧ t.k < t.period ∧ t.counter ≠ 0 ∧ (t.reverse = false → t.s + 1 < t.span) ∧
      (t.reverse = true → t.s ≠ 0))

/-- The ranges of Table 5-7; a disabled generator stands at the start of its cycle with phase ON (R88). -/
abbrev Blink.legal (b : Blink) : Prop :=
  2 ≤ b.period ∧ b.period ≤ 255 ∧ 1 ≤ b.onCount ∧ b.onCount < b.period ∧ b.counter < b.period ∧
    (∀ p c, b.staged = some (p, c) → 2 ≤ p ∧ p ≤ 255 ∧ 1 ≤ c ∧ c < p) ∧
    (b.enabled = false → b.counter = 0 ∧ b.on = true)

/-- Every (slot, row) pair is in the map (R51). -/
abbrev Bank.full (b : Bank) (g : Geometry) : Prop :=
  ∀ sl, sl < g.slots → ∀ r, r < g.rows → rowKey sl r ∈ b.written

/-- The roles of the two banks are one of the arrangements of Table 4-2. -/
def arranged (a b : BankRole) : Bool :=
  match a, b with
  | .staging, .unused => true
  | .unused, .staging => true
  | .pending, .unused => true
  | .unused, .pending => true
  | .live, .staging => true
  | .staging, .live => true
  | .live, .pending => true
  | .pending, .live => true
  | _, _ => false

/-- An EMPTY field set has no roles and empty maps; a DEFINED one has a valid geometry, an arrangement of Table 4-2, and full maps in
its live and its pending bank (R51). -/
def FieldSet.legal (f : FieldSet) : Prop :=
  match f.geometry with
  | none => f.bank0.role = .unused ∧ f.bank1.role = .unused ∧ f.bank0.written = [] ∧ f.bank1.written = []
  | some g =>
    g.valid = true ∧ arranged f.bank0.role f.bank1.role = true ∧
      (f.bank0.role = .live ∨ f.bank0.role = .pending → f.bank0.full g) ∧
      (f.bank1.role = .live ∨ f.bank1.role = .pending → f.bank1.full g)

/-- The buffer that the job in flight names (R109). -/
def Render.rendering (r : Render) (which : BufferId) : Bool :=
  match r.job with
  | none => false
  | some j => j.buffer == which

/-- At most one buffer is FRONT and at most one READY, a buffer is RENDERING exactly while the job in flight names it, and no buffer
waits READY behind a job in flight (R109, R111). -/
abbrev Render.legal (r : Render) : Prop :=
  ¬(r.bufferA.role = .front ∧ r.bufferB.role = .front) ∧ ¬(r.bufferA.role = .ready ∧ r.bufferB.role = .ready) ∧
    (r.bufferA.role = .rendering ↔ r.rendering .a = true) ∧ (r.bufferB.role = .rendering ↔ r.rendering .b = true) ∧
    (r.job.isSome = true → r.hasReady = false)

/-- The chart flash, both frame buffers and the rows of every bank are in canonical form (log 13, log 14). -/
abbrev State.canonical (s : State) : Prop :=
  Mem.wf flashDefault s.chart.flash = true ∧ Mem.wf pixelDefault s.render.bufferA.pixels = true ∧
    Mem.wf pixelDefault s.render.bufferB.pixels = true ∧
    ∀ f : Fin 4, Mem.wf rowDefault s.store.sets[f].bank0.values = true ∧
      Mem.wf rowDefault s.store.sets[f].bank1.values = true

/-- The transmit queues hold at most 8 packets, the suspect list at most 8 tiles and the bad tile list at most 32 (R139, R167). -/
abbrev State.bounded (s : State) : Prop :=
  s.forecast.queue.length ≤ queueLimit ∧ s.studio.queue.length ≤ queueLimit ∧ s.chart.suspect.length ≤ suspectLimit ∧
    s.chart.bad.length ≤ badLimit

/-! ### Shapes that several statements share -/

/-- The number of the frame that the frame start now due begins: current already where a row has entered it (R5, log 6). -/
abbrev State.dueFrame (s : State) : FrameNumber := if s.isAhead .generator then s.timing.frame else s.timing.frame + 1

/-- The notices of one part of the frame start now due, as FRAME_START queues them (log 7). -/
abbrev State.partNotices (s : State) (h : FramePart) : List (Link × Notice) :=
  (s.enterFrame.framePosts.filter (fun x => x.part == h)).map (fun x => (x.link, x.notice))

/-- A port after the notices of `ps` for its link, in their order, each with frame number `n` (R6, R167). -/
abbrev Port.afterPosts (p : Port) (l : Link) (n : FrameNumber) (ps : List Posting) : Port :=
  (ps.filter (fun x => x.link == l)).foldl (fun q x => Port.notify (x.notice.packet n) q) p

/-- A timeline's step has committed (R76, R78). -/
abbrev Timeline.committed (before after : Timeline) : Prop :=
  (after.s : Int) = (if before.reverse then (before.s : Int) - 1 else (before.s : Int) + 1) ∧ after.q = 0 ∧ after.k = 0 ∧
    after.counter = (if before.counter = 1 then before.queued else before.counter - 1) ∧
    after.queued = (if before.counter = 1 then 0 else before.queued) ∧
    after.rate = before.nextRate.getD before.rate ∧ after.nextRate = none ∧
    after.state = (if before.state = .stopping then .stopped else .armed) ∧
    after.shown = ⟨after.s, 0, before.reverse, true⟩

/-- A blink generator's cycle has ended: a staged pair is taken up and the new cycle starts ON (R88). -/
abbrev Blink.cycled (b : Blink) : Blink :=
  { b with
    counter := 0
    period := (b.staged.getD (b.period, b.onCount)).1
    onCount := (b.staged.getD (b.period, b.onCount)).2
    staged := none
    on := true
    enabledAt := none }

/-- The pending bank `second` of a field set has become live, and the other bank staging with an empty map (R59). -/
abbrev FieldSet.flipped (before after : FieldSet) (second : Bool) : Prop :=
  after.bank second = { before.bank second with role := .live } ∧
    after.bank (!second) = { before.bank (!second) with role := .staging, written := [] } ∧
    after.geometry = before.geometry

/-- The command that a packet of a command kind is (Table 12-2). -/
def Kind.command (k : Kind) (p : Packet) : Instr :=
  match k with
  | .status => .status p
  | .echo => .echo p
  | .faultRead => .faultRead p
  | .cacheRestore => .cacheRestore p
  | .memoPost => .memoPost p
  | .memoTake => .memoTake p
  | .memoWithdraw => .memoWithdraw p
  | .gridDefine => .gridDefine p
  | .gridRows => .gridRows p
  | .gridPublish => .gridPublish p
  | .gridStatus => .gridStatus p
  | .listWrite => .listWrite p
  | .symbolWrite => .symbolWrite p
  | .flashRead => .flashRead p
  | .flashProgram => .flashProgram p
  | .flashErase => .flashErase p
  | .chartRescan => .chartRescan p
  | .pageDefine => .pageDefine p
  | .pageDelete => .pageDelete p
  | .pageRead => .pageRead p
  | .load => .load p
  | .unload => .unload p
  | .take => .take p
  | .clear => .clear p
  | .panic => .panic p
  | .paletteWrite => .paletteWrite p
  | .timelineSet => .timelineSet p
  | .timelineSteps => .timelineSteps p
  | .timelineRun => .timelineRun p
  | .timelineStop => .timelineStop p
  | .timelineJump => .timelineJump p
  | .timelineClear => .timelineClear p
  | .blinkSet => .blinkSet p
  | .offset => .offset p
  | .nudge => .nudge p

/-- A pulse at `p` is in window of the expected instant `e` (R7). -/
abbrev inWindowAt (e p : Nat) : Prop := e ≤ p + 2 ∧ p ≤ e + 2

/-- The generator has realigned on a pulse at `p` (R8). -/
abbrev realignedOn (before after : Timing) (p : Nat) : Prop :=
  after.expected = some (p + before.total) ∧ after.pulseSeen = false ∧
    after.scheduled = (if p + before.offset = before.began then before.began + before.total else p + before.offset)

/-- The expected instant has moved on from `e` and the frame schedule stands (R7). -/
abbrev movedOn (before after : Timing) (e : Nat) : Prop :=
  after.expected = some (e + before.total) ∧ after.pulseSeen = false ∧ after.scheduled = before.scheduled

/-- The generator has gone FREE: no expected instant, no mark, every count 0, the frame schedule untouched (R9). -/
abbrev goneFree (before after : Timing) : Prop :=
  after.refState = .free ∧ after.expected = none ∧ after.pulseSeen = false ∧ after.inWindow = 0 ∧ after.mismatch = 0 ∧
    after.holdover = 0 ∧ after.scheduled = before.scheduled ∧ after.offset = before.offset ∧ after.frame = before.frame

/-- A port that holds a command whose reply is not suppressed, with a packet in transmission, so that what is queued stays in the
queue. -/
abbrev Port.answers (p : Port) (c : CmdRecord) : Prop :=
  p.slot = some c ∧ p.suppressed = false ∧ p.tx.isSome = true

/-- The job in flight waits for the fetch of tile `t` that its next item needs, and the fetch holds the flash port (R126, R142). -/
abbrev State.fetchingFor (s : State) (j : Job) (it : DrawItem) (r : TileRequest) : Prop :=
  s.render.job = some j ∧ j.fetching = some r.tile ∧ (j.items s.store.lists)[j.drawn]? = some it ∧ j.request it = some r ∧
    s.chart.port = some .fetch ∧ s.chart.state = .valid ∧ s.chart.changing = false

/-- No deferred write and no CACHE RESTORE waits for the gap between jobs (R130). -/
abbrev State.nothingWaits (s : State) : Prop :=
  s.render.deferred = [] ∧ ∀ l, (s.port l).holds .cacheRestore = false

end Sys2Proof.Machine
end

