-- ==== Sys2Proof/Certificates/Slice0/Obligations.lean ====
section
/-! DEFINITION. The statements for the provers. -/

open Sys2Proof Sys2Proof.Machine

/-! ### The machine as a whole -/

/-- A step carries out the command at the front of the queue on the state with the queue's rest; with an empty queue it answers a
next state in which at most one pixel period has passed and the queue is still empty (the model's choice, log 1). -/
def Obligations.StepCarriesOutFrontCommand : Prop :=
  (∀ (c : Instr) (rest : List Instr) (s : State), s.pending = c :: rest → step s = exec c (s.withPending rest)) ∧
    ∀ s : State, s.pending = [] →
      ∃ t, step s = .next t ∧ t.pending = [] ∧ s.timing.now ≤ t.timing.now ∧ t.timing.now ≤ s.timing.now + 1

/-- Every command leaves every block that `touched` does not list for it as it was. That a packet moves the clock to its instant is
the model's choice (log 3), and so is that a row for one part of a frame start enters it, and so changes the timing generator, ahead
of FRAME_START, and that FLIP has the timelines that its test reads handle it too (log 6). -/
def Obligations.CommandLeavesOtherBlocks : Prop :=
  ∀ (c : Instr) (s t : State) (b : Block), exec c s = .next t → b ∉ touched c → agree b s t

/-- Every step keeps the transmit queues, the suspect list and the bad tile list within their limits, and the chart flash, both frame
buffers and the rows of every bank in canonical form (log 13, log 14). -/
def Obligations.LimitsAndMemoriesKept : Prop :=
  ∀ s t : State, step s = .next t → (s.bounded → t.bounded) ∧ (s.canonical → t.canonical)

/-- The state after reset meets every invariant that the other statements show to be kept. -/
def Obligations.ResetMeetsInvariants : Prop :=
  State.reset.bounded ∧ State.reset.canonical ∧ State.reset.output.legal ∧
    State.reset.pages.legal State.reset.output.state ∧ (∀ t : Fin 4, State.reset.timelines[t].legal) ∧
    (∀ b : Fin 4, State.reset.blinks[b].legal) ∧ (∀ f : Fin 4, State.reset.store.sets[f].legal) ∧
    State.reset.render.legal

/-- Power-on reset: every block takes the values that the spec gives, and the DRAM of the banks and buffers, the queue, and the flash
outside a sector being erased or a page being programmed keep what they hold. -/
def Obligations.PowerOnResetSetsEveryBlock : Prop :=
  ∀ (high : Bool) (s : State), ∃ t, exec (.powerOnReset high) s = .next t ∧
    t.timing.rate = (if high then .fps5994 else .fps50) ∧ t.timing.offset = 0 ∧ t.timing.pendingOffset = none ∧
    t.timing.nudge = none ∧ t.timing.refState = .free ∧ t.timing.expected = none ∧ t.timing.pulseSeen = false ∧
    t.timing.inWindow = 0 ∧ t.timing.mismatch = 0 ∧ t.timing.holdover = 0 ∧ t.timing.frame = 0 ∧
    t.timing.position = 0 ∧ t.timing.frameInstant = t.timing.now + t.timing.total ∧
    t.output.state = .dark ∧ t.output.acc = 0 ∧ t.output.slope = 0 ∧ t.output.cut = none ∧
    t.output.keyEnable = false ∧ (∀ i : Fin 32, t.output.palette[i] = ⟨16, 128, 128, 0⟩) ∧
    t.output.staged = t.output.palette ∧
    (∀ p : Fin 16, t.pages.pages[p] = none) ∧ t.pages.loaded = none ∧ t.pages.outgoing = none ∧
    (∀ f : Fin 4, t.store.sets[f].geometry = none ∧ t.store.sets[f].legal ∧
      t.store.sets[f].bank0.values = s.store.sets[f].bank0.values ∧
      t.store.sets[f].bank1.values = s.store.sets[f].bank1.values) ∧
    (∀ l : Fin 8, t.store.lists[l] = []) ∧
    (∀ (y : Fin 64) (row col : Nat), row < 32 → col < 32 → symbolCode t.store.symbols[y] row col = 0) ∧
    (∀ n : Fin 4, t.timelines[n].state = .stopped ∧ t.timelines[n].s = 0 ∧ t.timelines[n].q = 0 ∧
      t.timelines[n].k = 0 ∧ t.timelines[n].counter = 0 ∧ t.timelines[n].queued = 0 ∧ t.timelines[n].nextRate = none ∧
      t.timelines[n].reverse = false ∧ t.timelines[n].rate = 4 ∧ t.timelines[n].tf = 16 ∧ t.timelines[n].lead = 0 ∧
      t.timelines[n].tr = 16 ∧ t.timelines[n].span = 25) ∧
    (∀ b : Fin 4, t.blinks[b] = ⟨true, 0, 50, 25, none, true, none⟩) ∧
    t.render.bufferA = ⟨.free, none, s.render.bufferA.pixels⟩ ∧ t.render.bufferB = ⟨.free, none, s.render.bufferB.pixels⟩ ∧
    t.render.job = none ∧ t.render.late = false ∧ t.render.newlyLoaded = none ∧ t.render.deferred = [] ∧
    t.chart.directory = none ∧ (∀ i : Fin 64, t.chart.cache[i] = none) ∧ t.chart.working = none ∧
    t.chart.suspect = [] ∧ t.chart.bad = [] ∧ t.chart.state = .scanning ∧ t.chart.op = some (.rescan false) ∧
    t.chart.port = none ∧
    ((∀ a d, s.chart.op ≠ some (.program a d)) → (∀ k, s.chart.op ≠ some (.erase k)) → t.chart.flash = s.chart.flash) ∧
    (∀ a, Mem.wf flashDefault s.chart.flash = true →
      (∀ k, s.chart.op = some (.erase k) → a < k * 65536 ∨ (k + 1) * 65536 ≤ a) →
      (∀ m d, s.chart.op = some (.program m d) → a < m ∨ m + 256 ≤ a) → t.chart.byte a = s.chart.byte a) ∧
    t.fault.record = none ∧ t.fault.more = false ∧ t.fault.mode = .normal ∧
    (∀ l : Link, (t.port l).rx = .hunting ∧ (t.port l).packet = none ∧ (t.port l).slot = none ∧
      (t.port l).suppressed = false ∧ (t.port l).queue = [] ∧ (t.port l).tx = none ∧
      (t.port l).summary = Summary.empty) ∧
    t.memo.forecastToStudio = none ∧ t.memo.studioToForecast = none ∧ t.pending = s.pending

/-! ### Timing generator -/

/-- A frame start advances the frame number by one, wrapping at 2^32, begins the frame at the scheduled instant, and schedules the
next frame start total pixel periods later where no offset change intervenes (also where the scheduled instant has passed, an OFFSET
having cancelled a positive nudge after it: the model's choice, log 25). Where a row has entered it already (the model's choice, log
6), FRAME_START leaves number and schedule as that row put them. Every notice of its handling is queued on its link with the frame's
number, in an order that keeps the order within one part (the choice among such orders is an operand, log 7). -/
def Obligations.FrameStartAdvances : Prop :=
  (∀ (order : List FramePart) (s : State), FramePart.generator ∉ s.ahead → ∃ t, exec (.frameStart order) s = .next t ∧
    t.timing.frame = s.timing.frame + 1 ∧ t.timing.began = s.timing.frameInstant ∧
    t.timing.now = max s.timing.now s.timing.frameInstant ∧ t.ahead = [] ∧
    (s.timing.pendingOffset = none → t.timing.scheduled = s.timing.frameInstant + s.timing.total)) ∧
  (∀ (order : List FramePart) (s : State), FramePart.generator ∈ s.ahead → ∃ t, exec (.frameStart order) s = .next t ∧
    t.timing.frame = s.timing.frame ∧ t.timing.began = s.timing.began ∧ t.timing.scheduled = s.timing.scheduled ∧
    t.timing.offset = s.timing.offset ∧ t.timing.now = s.timing.now ∧ t.ahead = []) ∧
  (∀ (order : List FramePart) (s : State), ∃ t, exec (.frameStart order) s = .next t ∧
    ∀ l, t.port l = (s.port l).afterPosts l s.dueFrame (arrange order s.enterFrame.framePosts)) ∧
  ∀ (order : List FramePart) (ps : List Posting), (arrange order ps).Perm ps ∧
    ∀ h, (arrange order ps).filter (fun x => x.part == h) = ps.filter (fun x => x.part == h)

/-- A reference pulse acts on the generator as Table 1-3 gives for its state and its window; a change of reference state queues one
REFERENCE notice on each link, with the new state and the frame number current, and nothing else is queued. (That a realignment in
the pixel period in which power-on reset ended, with offset 0, takes the reset's end as frame 0's frame start is the model's choice,
log 32.) -/
def Obligations.PulseFollowsTable : Prop :=
  ∀ (time : Nat) (s : State), ∃ t, exec (.referencePulse time) s = .next t ∧
    let p := max s.timing.now time
    (s.timing.refState = .free →
      t.timing.refState = .acquire ∧ t.timing.inWindow = 0 ∧ realignedOn s.timing t.timing p) ∧
    (∀ e, s.timing.expected = some e →
      (s.timing.refState = .acquire → inWindowAt e p → s.timing.inWindow < 3 →
        t.timing.refState = .acquire ∧ t.timing.inWindow = s.timing.inWindow + 1 ∧ movedOn s.timing t.timing e) ∧
      (s.timing.refState = .acquire → inWindowAt e p → 3 ≤ s.timing.inWindow →
        t.timing.refState = .locked ∧ t.timing.inWindow = 0 ∧ t.timing.mismatch = 0 ∧ movedOn s.timing t.timing e) ∧
      (s.timing.refState = .acquire → ¬inWindowAt e p →
        t.timing.refState = .acquire ∧ t.timing.inWindow = 0 ∧ realignedOn s.timing t.timing p) ∧
      (s.timing.refState = .locked → inWindowAt e p →
        t.timing.refState = .locked ∧ t.timing.mismatch = 0 ∧ movedOn s.timing t.timing e) ∧
      (s.timing.refState = .locked → ¬inWindowAt e p → s.timing.mismatch = 0 →
        t.timing = { s.timing with now := p, mismatch := 1, pulseSeen := true }) ∧
      (s.timing.refState = .locked → ¬inWindowAt e p → s.timing.mismatch ≠ 0 →
        t.timing.refState = .acquire ∧ t.timing.inWindow = 0 ∧ t.timing.mismatch = 0 ∧
          realignedOn s.timing t.timing p) ∧
      (s.timing.refState = .holdover → inWindowAt e p →
        t.timing.refState = .locked ∧ t.timing.holdover = 0 ∧ t.timing.mismatch = 0 ∧ movedOn s.timing t.timing e) ∧
      (s.timing.refState = .holdover → ¬inWindowAt e p →
        t.timing.refState = .acquire ∧ t.timing.inWindow = 0 ∧ t.timing.holdover = 0 ∧
          realignedOn s.timing t.timing p)) ∧
    ∀ l, t.port l =
      if t.timing.refState = s.timing.refState then s.port l
      else Port.notify ((Notice.reference t.timing.refState).packet s.timing.frame) (s.port l)

/-- At a decision instant the expected instant moves on, except that ACQUIRE goes FREE; LOCKED with no pulse seen goes HOLDOVER; a
change of reference state queues a REFERENCE notice on each link. In HOLDOVER a frame start advances the holdover count; reaching 250 it
makes the generator FREE, with a REFERENCE notice on each link that carries the number of that frame start (acting ahead of FRAME_START
is the model's choice, log 6 and log 17). -/
def Obligations.LossOfReferenceActs : Prop :=
  (∀ (s : State) (e : Nat), s.timing.expected = some e → s.timing.refState ≠ .free →
    ∃ t, exec .decisionInstant s = .next t ∧ t.timing.now = max s.timing.now (e + s.timing.rate.half) ∧
      (s.timing.refState = .acquire → s.timing.pulseSeen = false → goneFree s.timing t.timing) ∧
      (s.timing.refState = .locked → s.timing.pulseSeen = false →
        t.timing.refState = .holdover ∧ t.timing.holdover = 0 ∧ t.timing.mismatch = 0 ∧ movedOn s.timing t.timing e) ∧
      (s.timing.refState = .locked → s.timing.pulseSeen = true →
        t.timing.refState = .locked ∧ t.timing.mismatch = s.timing.mismatch ∧ movedOn s.timing t.timing e) ∧
      (s.timing.refState = .holdover →
        t.timing.refState = .holdover ∧ t.timing.holdover = s.timing.holdover ∧ movedOn s.timing t.timing e) ∧
      ∀ l, t.port l =
        if t.timing.refState = s.timing.refState then s.port l
        else Port.notify ((Notice.reference t.timing.refState).packet s.timing.frame) (s.port l)) ∧
  (∀ s : State, s.timing.refState = .holdover → s.timing.holdover = 249 → FramePart.reference ∉ s.ahead →
    (∃ t, exec .holdoverExpiry s = .next t ∧ goneFree s.enterFrame.timing t.timing ∧ t.timing.frame = s.dueFrame ∧
      ∀ l, t.port l = Port.notify ((Notice.reference .free).packet s.dueFrame) (s.port l)) ∧
    (∀ order, ∃ t, exec (.frameStart order) s = .next t ∧ goneFree s.enterFrame.timing t.timing) ∧
    s.partNotices .reference = [(.forecast, .reference .free), (.studio, .reference .free)]) ∧
  ∀ (order : List FramePart) (s : State), s.timing.refState = .holdover → s.timing.holdover < 249 →
    FramePart.reference ∉ s.ahead → ∃ t, exec (.frameStart order) s = .next t ∧ t.timing.refState = .holdover ∧
      t.timing.holdover = s.timing.holdover + 1 ∧ s.partNotices .reference = []

/-- A pending nudge moves the first frame start that lies more than 16 pixel periods after each of R15's instants by its amount, and
the offset by the same amount modulo total; outside HOLDOVER the reference state, the expected instant and the counts stay. A frame
start that lies 16 pixel periods or less after one of them, or at which an offset pending when the NUDGE was taken is still pending,
is not moved, and the nudge stays pending and the offset as it was. A pending offset v takes effect at the next frame start: the
offset becomes v, and the frame that begins there lasts (v - o) mod total pixel periods, or total where v equals the old offset o; a
nudge taken while it was pending then waits for a later frame start. Both come with FRAME_START, or with their own row ahead of it
(the model's choice, log 6); NUDGE_APPLY does nothing where the nudge does not move the frame start (the model's choice, log 4); and
where an OFFSET cancelled a positive nudge after the scheduled instant had passed, the frame begins at that past instant (the
model's choice, log 25). -/
def Obligations.NudgeAndOffsetMoveTheFrameStart : Prop :=
  (∀ (s : State) (n : PendingNudge) (c : Instr), s.timing.nudge = some n → n.behindOffset = false →
    n.takenAt + 16 < s.timing.scheduled → (∀ e, n.offsetAt = some e → e + 16 < s.timing.scheduled) →
    s.timing.scheduledAt + 16 < s.timing.scheduled → FramePart.generator ∉ s.ahead →
    (c = .nudgeApply ∨ ∃ order, c = .frameStart order) →
    s.timing.frameInstant = ((s.timing.scheduled : Int) + n.amount).toNat ∧
      ∃ t, exec c s = .next t ∧ t.timing.began = s.timing.frameInstant ∧ t.timing.nudge = none ∧
        t.timing.frame = s.timing.frame + 1 ∧
        (s.timing.pendingOffset = none →
          t.timing.offset = (((s.timing.offset : Int) + n.amount) % (s.timing.total : Int)).toNat ∧
          t.timing.scheduled = s.timing.frameInstant + s.timing.total) ∧
        (c = .nudgeApply ∨ s.timing.refState ≠ .holdover → t.timing.expected = s.timing.expected ∧
          t.timing.refState = s.timing.refState ∧ t.timing.inWindow = s.timing.inWindow ∧
          t.timing.mismatch = s.timing.mismatch)) ∧
  (∀ (s : State) (n : PendingNudge), s.timing.nudge = some n → FramePart.generator ∉ s.ahead →
    (n.behindOffset = true ∨ s.timing.scheduled ≤ n.takenAt + 16 ∨
      (∃ e, n.offsetAt = some e ∧ s.timing.scheduled ≤ e + 16) ∨ s.timing.scheduled ≤ s.timing.scheduledAt + 16) →
    s.timing.frameInstant = s.timing.scheduled ∧ exec .nudgeApply s = .next s ∧
      ∀ order, ∃ t, exec (.frameStart order) s = .next t ∧ t.timing.began = s.timing.scheduled ∧
        t.timing.frame = s.timing.frame + 1 ∧ t.timing.nudge ≠ none ∧
        (s.timing.pendingOffset = none ∨ n.behindOffset = false → t.timing.nudge = some n) ∧
        (s.timing.pendingOffset = none →
          t.timing.offset = s.timing.offset ∧ t.timing.scheduled = s.timing.scheduled + s.timing.total)) ∧
  ∀ (s : State) (v : Nat) (c : Instr), s.timing.pendingOffset = some v → FramePart.generator ∉ s.ahead →
    (∀ n, s.timing.nudge = some n → n.behindOffset = true) → (c = .offsetTakesEffect ∨ ∃ order, c = .frameStart order) →
    ∃ t, exec c s = .next t ∧ t.timing.offset = v ∧ t.timing.pendingOffset = none ∧
      t.timing.frame = s.timing.frame + 1 ∧ t.timing.began = s.timing.scheduled ∧
      t.timing.scheduled = t.timing.began +
        (if v = s.timing.offset then s.timing.total
          else (((v : Int) - (s.timing.offset : Int)) % (s.timing.total : Int)).toNat) ∧
      t.timing.nudge = s.timing.nudge.map (fun n => { n with behindOffset := false, offsetAt := some s.timing.scheduled })

/-- NUDGE and OFFSET: NUDGE is refused while a nudge is pending, else clamped to -15..16 and made pending unless 0; OFFSET is clamped
to 0..total - 1, becomes the pending offset and cancels a pending nudge; each reply carries the value accepted. -/
def Obligations.PhaseCommandsAccepted : Prop :=
  (∀ (p : Packet) (s : State) (n : PendingNudge), takes .nudge p s = true → s.timing.nudge = some n →
    exec (.nudge p) s = .next ((s.taken .nudge p).finish p.link .nudgePending [])) ∧
  (∀ (p : Packet) (s : State), takes .nudge p s = true → s.timing.nudge = none →
    let n := fieldInt p.payload 0
    let v := max (-15) (min n 16)
    ∃ t, exec (.nudge p) s = .next t ∧
      t.timing.nudge = (if v = 0 then none
        else some ⟨v, max s.timing.now p.time, s.timing.pendingOffset.isSome, none⟩) ∧
      t.timing.pendingOffset = s.timing.pendingOffset ∧ t.timing.offset = s.timing.offset ∧
      t.timing.scheduled = s.timing.scheduled ∧ t.timing.expected = s.timing.expected ∧
      t.port p.link = Port.finish (if v = n then .ok else .adjusted) (signed2 v) ((s.taken .nudge p).port p.link)) ∧
  (∀ (p : Packet) (s : State), takes .offset p s = true →
    let v := fieldNat p.payload 0 4
    let w := min v (s.timing.total - 1)
    ∃ t, exec (.offset p) s = .next t ∧ t.timing.pendingOffset = some w ∧ t.timing.nudge = none ∧
      t.timing.offset = s.timing.offset ∧ t.timing.refState = s.timing.refState ∧
      t.timing.expected = s.timing.expected ∧ t.timing.pulseSeen = s.timing.pulseSeen ∧
      t.timing.inWindow = s.timing.inWindow ∧ t.timing.mismatch = s.timing.mismatch ∧
      t.timing.holdover = s.timing.holdover ∧
      t.port p.link = Port.finish (if w = v then .ok else .adjusted) (bytes4 w) ((s.taken .offset p).port p.link))

/-! ### Output stage -/

/-- TAKE and CLEAR act on the output state, the slope and the pending cut as Table 2-3 gives, never on the accumulator; TAKE is refused
where no page is LOADED. -/
def Obligations.TakeAndClearFollowTable : Prop :=
  (∀ (p : Packet) (s : State), takes .take p s = true → s.pages.loaded = none →
    exec (.take p) s = .next ((s.taken .take p).finish p.link .noPage [])) ∧
  (∀ (p : Packet) (s : State), takes .take p s = true → s.pages.loaded ≠ none →
    let d := min (fieldNat p.payload 0 2) 250
    ∃ t, exec (.take p) s = .next t ∧ t.output.acc = s.output.acc ∧
      t.output.state = (if 1 ≤ d ∧ s.output.state ≠ .onAir then .fadeIn else s.output.state) ∧
      t.output.slope = (if 1 ≤ d then (65280 + d - 1) / d else s.output.slope) ∧
      t.output.cut = (if d = 0 ∧ s.output.state ≠ .onAir then some .toOnAir else none) ∧
      t.port p.link = (((s.taken .take p).setOutput t.output).notifyOutput s.output.state |>.finish p.link
        (if d = fieldNat p.payload 0 2 then .ok else .adjusted) (bytes2 d)).port p.link) ∧
  (∀ (p : Packet) (s : State), takes .clear p s = true →
    let d := min (fieldNat p.payload 0 2) 250
    ∃ t, exec (.clear p) s = .next t ∧ t.output.acc = s.output.acc ∧
      t.output.state = (if 1 ≤ d ∧ s.output.state ≠ .dark then .fadeOut else s.output.state) ∧
      t.output.slope = (if 1 ≤ d ∧ s.output.state ≠ .dark then (65280 + d - 1) / d else s.output.slope) ∧
      t.output.cut = (if d = 0 ∧ s.output.state ≠ .dark then some .toDark else none) ∧
      t.port p.link = (((s.taken .clear p).setOutput t.output).notifyOutput s.output.state |>.finish p.link
        (if d = fieldNat p.payload 0 2 then .ok else .adjusted) (bytes2 d)).port p.link)

/-- A fade of D frames, D from 1 to 250, takes exactly D frame starts from one end of the accumulator to the other. -/
def Obligations.FadeTakesItsDuration : Prop :=
  ∀ (d : Nat) (o : OutputStage), 1 ≤ d → d ≤ 250 → o.slope = slopeOf d →
    (o.state = .fadeIn → o.acc = 0 →
      (OutputStage.fadeStep^[d] o).acc = 65280 ∧ (OutputStage.fadeStep^[d] o).state = .onAir ∧
      ∀ n, n < d → (OutputStage.fadeStep^[n] o).state = .fadeIn ∧ (OutputStage.fadeStep^[n] o).acc < 65280) ∧
    (o.state = .fadeOut → o.acc = 65280 →
      (OutputStage.fadeStep^[d] o).acc = 0 ∧ (OutputStage.fadeStep^[d] o).state = .dark ∧
      ∀ n, n < d → (OutputStage.fadeStep^[n] o).state = .fadeOut ∧ 0 < (OutputStage.fadeStep^[n] o).acc)

/-- A frame start copies the staged palette, steps the fade or applies the pending cut, never both, and sets the key enable exactly
where the front buffer's tag names the LOADED or the OUTGOING page; a change of output state queues OUTPUT_STATE on the studio link. -/
def Obligations.FrameStartDrivesTheOutput : Prop :=
  ∀ (order : List FramePart) (s : State), ∃ t, exec (.frameStart order) s = .next t ∧
    t.output.palette = s.output.staged ∧ t.output.staged = s.output.staged ∧ t.output.slope = s.output.slope ∧
    (t.output.keyEnable = true ↔ ∃ b p, t.render.front = some b ∧ b.tag = some p ∧
      (t.pages.loaded = some p ∨ t.pages.outgoing = some p)) ∧
    (FramePart.output ∉ s.ahead → t.output.cut = none ∧
      (s.output.cut = none → s.output.state = .fadeIn →
        t.output.acc = min (s.output.acc + s.output.slope) 65280 ∧
        t.output.state = (if 65280 ≤ s.output.acc + s.output.slope then .onAir else .fadeIn)) ∧
      (s.output.cut = none → s.output.state = .fadeOut →
        t.output.acc = s.output.acc - s.output.slope ∧
        t.output.state = (if s.output.acc ≤ s.output.slope then .dark else .fadeOut)) ∧
      (s.output.cut = none → s.output.state = .dark ∨ s.output.state = .onAir →
        t.output.acc = s.output.acc ∧ t.output.state = s.output.state) ∧
      (s.output.cut = some .toOnAir → s.pages.loaded ≠ none → t.output.acc = 65280 ∧ t.output.state = .onAir) ∧
      (s.output.cut = some .toOnAir → s.pages.loaded = none →
        t.output.acc = s.output.acc ∧ t.output.state = s.output.state) ∧
      (s.output.cut = some .toDark → t.output.acc = 0 ∧ t.output.state = .dark)) ∧
    s.partNotices .output =
      if t.output.state = s.output.state then [] else [(.studio, .outputState t.output.state)]

/-- PENDING_CUT: TO_ON_AIR with a page LOADED puts the output ON_AIR at 65280, without one it is dropped; TO_DARK makes it DARK at 0 and
ends an OUTGOING page; a change of state queues OUTPUT_STATE on the studio link (acting ahead of FRAME_START is the model's choice,
log 6 and log 17). -/
def Obligations.PendingCutActs : Prop :=
  ∀ (s : State) (c : Cut), s.output.cut = some c → FramePart.output ∉ s.ahead →
    ∃ t, exec .pendingCut s = .next t ∧ t.output.cut = none ∧ t.timing.frame = s.dueFrame ∧
      (c = .toOnAir → s.pages.loaded ≠ none → t.output.acc = 65280 ∧ t.output.state = .onAir ∧ t.pages = s.pages) ∧
      (c = .toOnAir → s.pages.loaded = none →
        t.output.acc = s.output.acc ∧ t.output.state = s.output.state ∧ t.pages = s.pages) ∧
      (c = .toDark → t.output.acc = 0 ∧ t.output.state = .dark ∧ t.pages.loaded = s.pages.loaded ∧
        (s.output.state ≠ .dark → t.pages.outgoing = none)) ∧
      t.studio = if t.output.state = s.output.state then s.studio
        else Port.notify ((Notice.outputState t.output.state).packet s.dueFrame) s.studio

/-- PANIC is taken into the slot and waits for the first line start after that, or for a frame start before it: a frame start that is
entered is the line start it acts at, if it comes first. It then acts at that instant: the accumulator is 0, the state DARK, the cut
cancelled, an OUTGOING page ended, the slope left, and the reply OK queued after the notice of a change. Where it acts at a frame start
ahead of FRAME_START, that frame start is entered, and the notice carries the number that it sets (entering it ahead is the model's
choice, log 6; that a PANIC taken in the pixel period of a frame start and ahead of it acts at that frame start, log 30). -/
def Obligations.PanicActsAtTheLineStart : Prop :=
  (∀ (p : Packet) (s : State), takes .panic p s = true → ∃ t, exec (.panic p) s = .next t ∧
    t = (s.taken .panic p).setTiming { (s.taken .panic p).timing with panicAt := t.timing.panicAt } ∧
    (s.timing.began ≤ s.timing.now → ∃ d, t.timing.panicAt = some d ∧ t.timing.now < d ∧
      d ≤ t.timing.now + s.timing.rate.width ∧ (d - s.timing.began) % s.timing.rate.width = 0) ∧
    ∀ d, t.timing.panicAt = some d → t.timing.panicDue = min d s.timing.frameInstant) ∧
  (∀ (order : List FramePart) (s : State) (d : Nat), s.timing.panicAt = some d → FramePart.generator ∉ s.ahead →
    ∃ t, exec (.frameStart order) s = .next t ∧ t.timing.panicAt = some (min d s.timing.frameInstant)) ∧
  ∀ s : State, s.studio.holds .panic = true →
    ∃ t, exec .panicActs s = .next t ∧ t.timing.now = max s.timing.now s.timing.panicDue ∧ t.timing.panicAt = none ∧
      (s.timing.panicDue = s.timing.frameInstant → t.timing.frame = s.dueFrame ∧ FramePart.generator ∈ t.ahead ∧
        (FramePart.generator ∉ s.ahead → t.timing.began = s.timing.frameInstant)) ∧
      (s.timing.panicDue ≠ s.timing.frameInstant → t.timing.frame = s.timing.frame ∧ t.ahead = s.ahead) ∧
      t.output.acc = 0 ∧ t.output.state = .dark ∧ t.output.cut = none ∧ t.output.slope = s.output.slope ∧
      t.pages.outgoing = none ∧ t.pages.loaded = s.pages.loaded ∧ t.studio.slot = none ∧
      t.studio = Port.finish .ok []
        (if s.output.state = .dark then s.studio
          else Port.notify ((Notice.outputState .dark).packet t.timing.frame) s.studio)

/-- PALETTE WRITE: a first entry or a count out of range is refused; else each entry is clamped and written to the staged palette, whose
other entries and the palette in use stay; the reply is ADJUSTED where clamping changed a component, else OK. -/
def Obligations.PaletteWriteStagesEntries : Prop :=
  ∀ (p : Packet) (s : State), takes .paletteWrite p s = true →
    let e := fieldNat p.payload 0 1
    let c := fieldNat p.payload 1 1
    (31 < e ∨ c < 1 ∨ 32 < c ∨ 32 < e + c →
      exec (.paletteWrite p) s = .next ((s.taken .paletteWrite p).finish p.link .range [])) ∧
    (e ≤ 31 → 1 ≤ c → c ≤ 32 → e + c ≤ 32 →
      ∃ t, exec (.paletteWrite p) s = .next t ∧ t.output.palette = s.output.palette ∧
        ∀ i : Fin 32, t.output.staged[i] =
          if e ≤ i.val ∧ i.val < e + c then
            ⟨max 16 (min (fieldNat p.payload (2 + 4 * (i.val - e)) 1) 235),
              max 16 (min (fieldNat p.payload (3 + 4 * (i.val - e)) 1) 240),
              max 16 (min (fieldNat p.payload (4 + 4 * (i.val - e)) 1) 240),
              fieldNat p.payload (5 + 4 * (i.val - e)) 1⟩
          else s.output.staged[i]) ∧
    (e ≤ 31 → 1 ≤ c → c ≤ 32 → e + c ≤ 32 →
      ∃ t st, exec (.paletteWrite p) s = .next t ∧
        t.port p.link = Port.finish st [] ((s.taken .paletteWrite p).port p.link) ∧ (st = .ok ∨ st = .adjusted) ∧
        (st = .adjusted ↔ ∃ i, i < c ∧
          (fieldNat p.payload (2 + 4 * i) 1 < 16 ∨ 235 < fieldNat p.payload (2 + 4 * i) 1 ∨
            fieldNat p.payload (3 + 4 * i) 1 < 16 ∨ 240 < fieldNat p.payload (3 + 4 * i) 1 ∨
            fieldNat p.payload (4 + 4 * i) 1 < 16 ∨ 240 < fieldNat p.payload (4 + 4 * i) 1)))

/-- Every step keeps the accumulator in 0..65280, at 0 in DARK and at 65280 in ON_AIR, and the slope in its range. -/
def Obligations.OutputLegalKept : Prop :=
  ∀ s t : State, s.output.legal → step s = .next t → t.output.legal

/-- The key output of a pixel is 0 in DARK, with the key enable clear or with no front buffer, else floor((key x level + 127) / 255) for
the level floor(acc / 256); it never exceeds the entry's key, and equals it on air. At an instant of an active pixel the fill pins carry
the colour of the entry that the front buffer's index names, or entry 0 with no front buffer, and the key pins that key output; in
blanking they carry 16, 128, 128 and 0. Where LOAD, UNLOAD or PANIC_ACTS makes the page of the front buffer's tag neither LOADED nor
OUTGOING, the key enable is cleared from the next line start of the raster in progress: the clock clears it on reaching that line start,
and not before, or a frame start that is entered first does (that the state remembers the line start is DEDUCED, log 26). -/
def Obligations.KeyOutputIsScaled : Prop :=
  (∀ (o : OutputStage) (key : Nat), o.legal → key ≤ 255 →
    (o.state = .dark → keyOutput o true key = 0) ∧ (o.keyEnable = false → keyOutput o true key = 0) ∧
    keyOutput o false key = 0 ∧ keyOutput o true key ≤ key ∧
    (o.state ≠ .dark → o.keyEnable = true → keyOutput o true key = (key * (o.acc / 256) + 127) / 255) ∧
    (o.state = .onAir → o.keyEnable = true → keyOutput o true key = key)) ∧
  (∀ s : State,
    let line := (s.timing.now - s.timing.began) / s.timing.rate.width
    let x := (s.timing.now - s.timing.began) % s.timing.rate.width
    (¬(41 ≤ line ∧ line ≤ 1120 ∧ x < 1920) → s.video = ⟨16, 128, 128, 0⟩) ∧
    (41 ≤ line → line ≤ 1120 → x < 1920 → ∀ i : Fin 32,
      (s.render.front = none → i = 0) →
      (∀ b, s.render.front = some b → Mem.read pixelDefault b.pixels ((line - 41) * 1920 + x) = i.val) →
      s.video = ⟨s.output.palette[i].y, s.output.palette[i].cb, s.output.palette[i].cr,
        keyOutput s.output s.render.front.isSome s.output.palette[i].key⟩)) ∧
  (∀ (c : Instr) (s : State), ((∃ p, c = .load p ∨ c = .unload p) ∨ c = .panicActs) →
    ∃ t, exec c s = .next t ∧ (s.timing.began ≤ s.timing.now → s.output.keyDropAt = none → s.frontKeyed = true →
      t.frontKeyed = false → t.output.keyEnable = s.output.keyEnable ∧ (s.output.keyEnable = true →
        ∃ d, t.output.keyDropAt = some d ∧ t.timing.now < d ∧ d ≤ t.timing.now + s.timing.rate.width ∧
          (d - t.timing.began) % s.timing.rate.width = 0))) ∧
  (∀ (time d : Nat) (s : State), s.output.keyDropAt = some d → ∃ t, exec (.referencePulse time) s = .next t ∧
    (d ≤ max s.timing.now time → t.output.keyEnable = false ∧ t.output.keyDropAt = none) ∧
    (max s.timing.now time < d → t.output = s.output)) ∧
  ∀ (v d : Nat) (s : State), s.timing.pendingOffset = some v → FramePart.generator ∉ s.ahead →
    s.output.keyDropAt = some d →
    ∃ t, exec .offsetTakesEffect s = .next t ∧ t.output.keyEnable = false ∧ t.output.keyDropAt = none

/-! ### Page table -/

/-- PAGE DEFINE and PAGE DELETE refuse a LOADED or OUTGOING page with PAGE_IN_USE; PAGE DEFINE then refuses with RANGE and with
VIEWPORT, in that order; else the content is stored whole or removed, the other pages stay, and every buffer tagged with the page
loses its tag. PAGE READ answers the state and the content. -/
def Obligations.PageContentCommands : Prop :=
  (∀ (p : Packet) (s : State), takes .pageDefine p s = true → s.pages.keyed (pageOf p) = true →
    exec (.pageDefine p) s = .next ((s.taken .pageDefine p).finish p.link .pageInUse [])) ∧
  (∀ (p : Packet) (s : State), takes .pageDefine p s = true → s.pages.keyed (pageOf p) = false →
    parsePage p.payload = none → exec (.pageDefine p) s = .next ((s.taken .pageDefine p).finish p.link .range [])) ∧
  (∀ (p : Packet) (s : State) (rec : PageRecord) (adjusted : Bool), takes .pageDefine p s = true →
    s.pages.keyed (pageOf p) = false → parsePage p.payload = some (rec, adjusted) →
    (rec.view.accepted = false →
      exec (.pageDefine p) s = .next ((s.taken .pageDefine p).finish p.link .viewport [])) ∧
    (rec.view.accepted = true → ∃ t, exec (.pageDefine p) s = .next t ∧ t.pages.pages[pageOf p] = some rec ∧
      (∀ q, q ≠ pageOf p → t.pages.pages[q] = s.pages.pages[q]) ∧ t.pages.loaded = s.pages.loaded ∧
      t.pages.outgoing = s.pages.outgoing ∧ t.render.bufferA.tag ≠ some (pageOf p) ∧
      t.render.bufferB.tag ≠ some (pageOf p) ∧
      t.port p.link = Port.finish (if adjusted then .adjusted else .ok) [] ((s.taken .pageDefine p).port p.link))) ∧
  (∀ (p : Packet) (s : State), takes .pageDelete p s = true → s.pages.keyed (pageOf p) = true →
    exec (.pageDelete p) s = .next ((s.taken .pageDelete p).finish p.link .pageInUse [])) ∧
  (∀ (p : Packet) (s : State), takes .pageDelete p s = true → s.pages.keyed (pageOf p) = false →
    ∃ t, exec (.pageDelete p) s = .next t ∧ t.pages.pages[pageOf p] = none ∧
      (∀ q, q ≠ pageOf p → t.pages.pages[q] = s.pages.pages[q]) ∧
      (s.pages.pages[pageOf p] ≠ none →
        t.render.bufferA.tag ≠ some (pageOf p) ∧ t.render.bufferB.tag ≠ some (pageOf p)) ∧
      t.port p.link = Port.finish .ok [] ((s.taken .pageDelete p).port p.link)) ∧
  (∀ (p : Packet) (s : State), takes .pageRead p s = true →
    exec (.pageRead p) s = .next ((s.taken .pageRead p).finish p.link .ok
      ((s.pages.pageState (pageOf p)).code ::
        (match s.pages.pages[pageOf p] with | none => [] | some rec => pageBytes rec))))

/-- The bytes in which PAGE READ gives a stored page record, with FFh in the fields absent for a layer's kind, are a PAGE DEFINE payload
of the same record: reading them again gives that record and clamps nothing. -/
def Obligations.StoredPageReadsBack : Prop :=
  ∀ (bytes : List Byte) (rec : PageRecord) (adjusted : Bool), parsePage bytes = some (rec, adjusted) →
    parsePage (pageBytes rec) = some (rec, false)

/-- LOAD and UNLOAD: the checks in their order; a LOAD that changes the LOADED page makes the former page OUTGOING unless the output is
DARK or another page is OUTGOING already, sets the newly loaded mark, and answers the LOADED and the OUTGOING page; an UNLOAD in DARK
leaves no page LOADED. -/
def Obligations.LoadAndUnloadAct : Prop :=
  (∀ (p : Packet) (s : State), takes .load p s = true →
    (s.pages.pages[pageOf p] = none → exec (.load p) s = .next ((s.taken .load p).finish p.link .range [])) ∧
    (s.pages.pages[pageOf p] ≠ none → s.pages.loaded = some (pageOf p) →
      exec (.load p) s = .next ((s.taken .load p).finish p.link .ok [byteOf (pageOf p).val, pageByte s.pages.outgoing])) ∧
    (s.pages.pages[pageOf p] ≠ none → s.pages.loaded ≠ some (pageOf p) → s.chart.op ≠ none →
      exec (.load p) s = .next ((s.taken .load p).finish p.link .chartBusy [])) ∧
    (s.pages.pages[pageOf p] ≠ none → s.pages.loaded ≠ some (pageOf p) → s.chart.op = none →
      ∃ t, exec (.load p) s = .next t ∧ t.pages.loaded = some (pageOf p) ∧ t.pages.pages = s.pages.pages ∧
        t.render.newlyLoaded = some (pageOf p) ∧
        t.port p.link = Port.finish .ok [byteOf (pageOf p).val, pageByte t.pages.outgoing]
          ((s.taken .load p).port p.link) ∧
        (s.output.state = .dark → s.pages.loaded ≠ none → t.pages.outgoing = none) ∧
        (s.pages.loaded = none → t.pages.outgoing = s.pages.outgoing) ∧
        (s.output.state ≠ .dark → s.pages.loaded ≠ none → s.pages.outgoing = none →
          t.pages.outgoing = s.pages.loaded) ∧
        (s.output.state ≠ .dark → s.pages.loaded ≠ none → s.pages.outgoing = some (pageOf p) →
          t.pages.outgoing = none) ∧
        (∀ q, s.output.state ≠ .dark → s.pages.loaded ≠ none → s.pages.outgoing = some q → q ≠ pageOf p →
          t.pages.outgoing = some q))) ∧
  (∀ (p : Packet) (s : State), takes .unload p s = true →
    (s.pages.loaded = none → exec (.unload p) s = .next ((s.taken .unload p).finish p.link .noPage [])) ∧
    (s.pages.loaded ≠ none → s.output.state ≠ .dark →
      exec (.unload p) s = .next ((s.taken .unload p).finish p.link .pageInUse [])) ∧
    (s.pages.loaded ≠ none → s.output.state = .dark → ∃ t, exec (.unload p) s = .next t ∧ t.pages.loaded = none ∧
      t.pages.pages = s.pages.pages ∧ t.pages.outgoing = s.pages.outgoing ∧ t.render.newlyLoaded = none ∧
      t.port p.link = Port.finish .ok [] ((s.taken .unload p).port p.link)))

/-- Every step keeps the LOADED and the OUTGOING page defined and distinct, and no page OUTGOING in DARK. -/
def Obligations.PagesLegalKept : Prop :=
  ∀ s t : State, s.pages.legal s.output.state → step s = .next t → t.pages.legal t.output.state

/-- Every point of the chart window of an accepted viewport maps into the screen window, and the chart point of every pixel of the
screen window lies in the chart window. -/
def Obligations.ViewportMapsStayInside : Prop :=
  ∀ v : Viewport, v.accepted = true →
    (∀ px py : Nat, v.sx0 ≤ px → px < v.sx0 + v.sw → v.sy0 ≤ py → py < v.sy0 + v.sh →
      v.cx0 ≤ (v.toChart px py).1 ∧ (v.toChart px py).1 < v.cx0 + v.cw ∧
        v.cy0 ≤ (v.toChart px py).2 ∧ (v.toChart px py).2 < v.cy0 + v.ch) ∧
    (∀ cx cy : Nat, v.cx0 ≤ cx → cx < v.cx0 + v.cw → v.cy0 ≤ cy → cy < v.cy0 + v.ch →
      v.inWindow (v.toScreen cx cy).1 (v.toScreen cx cy).2 = true)

/-! ### Forecast data store -/

/-- GRID DEFINE: RANGE for a field set outside 0..3; PAGE_IN_USE while a layer of the LOADED or OUTGOING page names the field set or the
job in flight holds it; else a valid geometry (RANGE for another) is stored, both maps are empty, bank 0 is staging and bank 1 has no
role, and the other field sets stay. -/
def Obligations.GridDefineStartsAnew : Prop :=
  (∀ (p : Packet) (s : State), takes .gridDefine p s = true → 4 ≤ p.arg.toNat →
    exec (.gridDefine p) s = .next ((s.taken .gridDefine p).finish p.link .range [])) ∧
  ∀ (p : Packet) (s : State) (f : Fin 4), takes .gridDefine p s = true → p.arg.toNat = f.val →
    (s.pages.namesField f = true ∨ s.render.holds f = true →
      exec (.gridDefine p) s = .next ((s.taken .gridDefine p).finish p.link .pageInUse [])) ∧
    (s.pages.namesField f = false → s.render.holds f = false →
      (parseGeometry p.payload = none →
        exec (.gridDefine p) s = .next ((s.taken .gridDefine p).finish p.link .range [])) ∧
      ∀ g, parseGeometry p.payload = some g →
        (g.valid = false → exec (.gridDefine p) s = .next ((s.taken .gridDefine p).finish p.link .range [])) ∧
        (g.valid = true → ∃ t, exec (.gridDefine p) s = .next t ∧ t.store.sets[f].geometry = some g ∧
          t.store.sets[f].bank0.role = .staging ∧ t.store.sets[f].bank1.role = .unused ∧
          t.store.sets[f].bank0.written = [] ∧ t.store.sets[f].bank1.written = [] ∧
          (∀ h, h ≠ f → t.store.sets[h] = s.store.sets[h]) ∧ t.store.lists = s.store.lists ∧
          t.store.symbols = s.store.symbols ∧
          t.port p.link = Port.finish .ok [] ((s.taken .gridDefine p).port p.link)))

/-- GRID ROWS: RANGE for a field set outside 0..3 or EMPTY; PENDING while a bank is pending; RANGE for a slot or row out of range; else
the row's clamped values stand in the staging bank at that slot and row, every other row stays, the map has the pair, and the reply,
ADJUSTED where a value was clamped and else OK, carries the missing count. -/
def Obligations.GridRowsWritesStaging : Prop :=
  (∀ (p : Packet) (s : State), takes .gridRows p s = true →
    (4 ≤ p.arg.toNat ∨ ∃ f : Fin 4, p.arg.toNat = f.val ∧ s.store.sets[f].geometry = none) →
    exec (.gridRows p) s = .next ((s.taken .gridRows p).finish p.link .range [])) ∧
  ∀ (p : Packet) (s : State) (f : Fin 4) (g : Geometry), takes .gridRows p s = true → p.arg.toNat = f.val →
    s.store.sets[f].geometry = some g →
    let slot := fieldNat p.payload 0 1
    let row := fieldNat p.payload 1 1
    (s.store.sets[f].findRole .pending ≠ none →
      exec (.gridRows p) s = .next ((s.taken .gridRows p).finish p.link .pending [])) ∧
    (s.store.sets[f].findRole .pending = none → g.slots ≤ slot ∨ g.rows ≤ row →
      exec (.gridRows p) s = .next ((s.taken .gridRows p).finish p.link .range [])) ∧
    (∀ second, s.store.sets[f].findRole .pending = none → slot < g.slots → row < g.rows →
      s.store.sets[f].findRole .staging = some second →
      Mem.wf rowDefault (s.store.sets[f].bank second).values = true →
      ∃ t, exec (.gridRows p) s = .next t ∧
        (∀ i, i < g.columns * g.kind.arity →
          (Mem.read rowDefault (t.store.sets[f].bank second).values (rowKey slot row)).getD i 0 =
            g.kind.clamp i (fieldInt p.payload (2 + 2 * i))) ∧
        (∀ k, k ≠ rowKey slot row → Mem.read rowDefault (t.store.sets[f].bank second).values k =
          Mem.read rowDefault (s.store.sets[f].bank second).values k) ∧
        (∀ k, k ∈ (t.store.sets[f].bank second).written ↔
          k = rowKey slot row ∨ k ∈ (s.store.sets[f].bank second).written) ∧
        (t.store.sets[f].bank second).role = .staging ∧
        t.store.sets[f].bank (!second) = s.store.sets[f].bank (!second) ∧
        t.store.sets[f].geometry = some g ∧ (∀ h, h ≠ f → t.store.sets[h] = s.store.sets[h]) ∧
        ∃ st, (st = .ok ∨ st = .adjusted) ∧ (st = .adjusted ↔ ∃ i, i < g.columns * g.kind.arity ∧
            g.kind.clamp i (fieldInt p.payload (2 + 2 * i)) ≠ fieldInt p.payload (2 + 2 * i)) ∧ t.port p.link = Port.finish st
          (bytes2 (g.slots * g.rows - (t.store.sets[f].bank second).written.length)) ((s.taken .gridRows p).port p.link))

/-- GRID PUBLISH and GRID STATUS: RANGE for a field set outside 0..3, and for PUBLISH of an EMPTY one; PENDING while a bank is pending,
INCOMPLETE with the first missing pair in slot-major order while one is missing, else the staging bank is pending; GRID STATUS answers
state, kind, origin, spacing, columns, rows, slots, both roles and the missing count of the staging bank, each absent one FFh (the
layout of the bytes is DEDUCED, log 19). -/
def Obligations.GridPublishAndStatus : Prop :=
  (∀ (p : Packet) (s : State), takes .gridPublish p s = true →
    (4 ≤ p.arg.toNat ∨ ∃ f : Fin 4, p.arg.toNat = f.val ∧ s.store.sets[f].geometry = none) →
    exec (.gridPublish p) s = .next ((s.taken .gridPublish p).finish p.link .range [])) ∧
  (∀ (p : Packet) (s : State), takes .gridStatus p s = true → 4 ≤ p.arg.toNat →
    exec (.gridStatus p) s = .next ((s.taken .gridStatus p).finish p.link .range [])) ∧
  (∀ (p : Packet) (s : State) (f : Fin 4) (g : Geometry), takes .gridPublish p s = true → p.arg.toNat = f.val →
    s.store.sets[f].geometry = some g →
    (s.store.sets[f].findRole .pending ≠ none →
      exec (.gridPublish p) s = .next ((s.taken .gridPublish p).finish p.link .pending [])) ∧
    ∀ second, s.store.sets[f].findRole .pending = none → s.store.sets[f].findRole .staging = some second →
      (∀ sl r, sl < g.slots → r < g.rows → rowKey sl r ∉ (s.store.sets[f].bank second).written →
        (∀ sl' r', sl' < g.slots → r' < g.rows → sl' < sl ∨ (sl' = sl ∧ r' < r) →
          rowKey sl' r' ∈ (s.store.sets[f].bank second).written) →
        exec (.gridPublish p) s = .next ((s.taken .gridPublish p).finish p.link .incomplete
          (bytes2 (g.slots * g.rows - (s.store.sets[f].bank second).written.length) ++ [byteOf sl, byteOf r]))) ∧
      ((s.store.sets[f].bank second).full g →
        ∃ t, exec (.gridPublish p) s = .next t ∧
          t.store.sets[f].bank second = { s.store.sets[f].bank second with role := .pending } ∧
          t.store.sets[f].bank (!second) = s.store.sets[f].bank (!second) ∧
          (∀ h, h ≠ f → t.store.sets[h] = s.store.sets[h]) ∧
          t.port p.link = Port.finish .ok [] ((s.taken .gridPublish p).port p.link))) ∧
  (∀ (p : Packet) (s : State) (f : Fin 4), takes .gridStatus p s = true → p.arg.toNat = f.val →
    exec (.gridStatus p) s = .next ((s.taken .gridStatus p).finish p.link .ok s.store.sets[f].statusBytes)) ∧
  ∀ v : FieldSet,
    let role (b : Bank) : Byte := match b.role with | .unused => 0 | .live => 1 | .staging => 2 | .pending => 3
    (v.geometry = none → v.statusBytes = 0 :: List.replicate 14 0xFF) ∧
    ∀ g, v.geometry = some g → v.statusBytes =
      ([1, match g.kind with | .wind => 0 | .tide => 1] : List Byte) ++ bytes2 g.x0 ++ bytes2 g.y0 ++ bytes2 g.spacing ++
        [byteOf g.columns, byteOf g.rows, byteOf g.slots, role v.bank0, role v.bank1] ++
        (if v.bank0.role = .staging then bytes2 (g.slots * g.rows - v.bank0.written.length)
          else if v.bank1.role = .staging then bytes2 (g.slots * g.rows - v.bank1.written.length) else [0xFF, 0xFF])

/-- A field set with a pending bank whose timeline and holder conditions hold flips at the frame start: that bank is live, the other
bank staging with an empty map, and BANK_LIVE goes to the forecast link; one whose timeline or holder condition does not hold, or
with no pending bank, stays as it is with no notice. The timeline condition is that every timeline which a data layer of the LOADED
page names beside the field set is at a boundary. No field set bears on another. The flip comes with FRAME_START, or with its own
row ahead of it (the model's choice, log 6 and log 17): each timeline that the test reads then handles the frame start with it, once
and with its notices, and is left at the boundary that the test found. That row does nothing where the conditions do not hold (log
4). -/
def Obligations.FlipMakesPendingLive : Prop :=
  (∀ (s : State) (f : Fin 4) (second : Bool), s.store.sets[f].findRole .pending = some second →
    s.pages.timelinesAtBoundary f s.boundaryNow = true → s.render.holds f = false → FramePart.flip f ∉ s.ahead →
    (∃ t, exec (.flip f) s = .next t ∧ s.store.sets[f].flipped t.store.sets[f] second ∧
      (∀ h, h ≠ f → t.store.sets[h] = s.store.sets[h]) ∧ t.timing.frame = s.dueFrame ∧
      t.forecast = Port.notify ((Notice.bankLive f second).packet s.dueFrame) s.forecast ∧
      (∀ n, t.timelines[n] = if n ∈ s.pages.flipTimelines f ∧ FramePart.timeline n ∉ s.ahead then s.timelines[n].frame
        else s.timelines[n]) ∧
      (∀ n ∈ s.pages.flipTimelines f, FramePart.timeline n ∈ t.ahead ∧ t.timelines[n].shown.boundary = true) ∧
      t.studio = ((s.pages.flipTimelines f).flatMap fun n => s.partNotices (.timeline n)).foldl
        (fun q x => Port.notify (x.2.packet s.dueFrame) q) s.studio) ∧
    ∀ order, ∃ t, exec (.frameStart order) s = .next t ∧ s.store.sets[f].flipped t.store.sets[f] second ∧
      s.partNotices (.flip f) = [(.forecast, .bankLive f second)]) ∧
  (∀ (t : PageTable) (f : Fin 4) (boundary : Fin 4 → Bool),
    (t.timelinesAtBoundary f boundary = true ↔ ∀ r, t.loadedRecord = some r →
      ∀ l ∈ r.layers, l.fieldSet = some f → ∀ n, l.timeline = some n → boundary n = true) ∧
    ∀ n, n ∈ t.flipTimelines f ↔
      ∃ r, t.loadedRecord = some r ∧ ∃ l ∈ r.layers, l.fieldSet = some f ∧ l.timeline = some n) ∧
  ∀ (s : State) (f : Fin 4), (s.store.sets[f].findRole .pending = none ∨
      s.pages.timelinesAtBoundary f s.boundaryNow = false ∨ s.render.holds f = true ∨ FramePart.flip f ∈ s.ahead) →
    exec (.flip f) s = .next s ∧
    ∀ order, ∃ t, exec (.frameStart order) s = .next t ∧ t.store.sets[f] = s.store.sets[f] ∧
      s.partNotices (.flip f) = []

/-- LIST WRITE and SYMBOL WRITE: RANGE for a list above 7, more than 48 records, a record that is refused, or a symbol above 63; applied
at once with no job in flight, else they wait and hold the slot; DEFERRED_WRITE_APPLY applies
the waiting write and answers it (that this row finds a write waiting with no job in flight is the model's choice, log 8). -/
def Obligations.DeferredWritesApplyInTheGap : Prop :=
  (∀ (p : Packet) (s : State), takes .listWrite p s = true →
    (8 ≤ p.arg.toNat ∨ 48 < fieldNat p.payload 0 1 ∨
      ∃ r ∈ records 10 (fieldNat p.payload 0 1) (p.payload.drop 1), parsePlacement r = none) →
    exec (.listWrite p) s = .next ((s.taken .listWrite p).finish p.link .range [])) ∧
  (∀ r : List Byte, parsePlacement r = none ↔
    63 < (fieldByte r 0).toNat ∨ 31 < (fieldByte r 5).toNat ∨ 31 < (fieldByte r 6).toNat ∨
      (3 < (fieldByte r 7).toNat ∧ fieldByte r 7 ≠ 0xFF)) ∧
  (∀ (p : Packet) (s : State), takes .symbolWrite p s = true → 63 < p.arg.toNat * 16 + fieldNat p.payload 0 1 →
    exec (.symbolWrite p) s = .next ((s.taken .symbolWrite p).finish p.link .range [])) ∧
  (∀ (p : Packet) (s : State) (l : Fin 8) (rs : List (Placement × Bool)), takes .listWrite p s = true →
    p.arg.toNat = l.val → fieldNat p.payload 0 1 ≤ 48 →
    parseAll parsePlacement (records 10 (fieldNat p.payload 0 1) (p.payload.drop 1)) = some rs →
    s.render.deferred = [] →
    (s.render.job = none → ∃ t, exec (.listWrite p) s = .next t ∧ t.store.lists[l] = rs.map (·.1) ∧
      (∀ m, m ≠ l → t.store.lists[m] = s.store.lists[m]) ∧ t.store.sets = s.store.sets ∧
      t.store.symbols = s.store.symbols ∧ t.render.deferred = [] ∧
      t.forecast = Port.finish (if rs.any (·.2) then .adjusted else .ok) [] ((s.taken .listWrite p).port .forecast)) ∧
    (s.render.job ≠ none → ∃ t, exec (.listWrite p) s = .next t ∧ t.store = s.store ∧
      t.render.deferred = [.list l (rs.map (·.1)) (rs.any (·.2))] ∧ t.port p.link = (s.taken .listWrite p).port p.link)) ∧
  (∀ (p : Packet) (s : State) (id : Fin 64), takes .symbolWrite p s = true →
    p.arg.toNat * 16 + fieldNat p.payload 0 1 = id.val → s.render.deferred = [] →
    (s.render.job = none → ∃ t, exec (.symbolWrite p) s = .next t ∧ t.store.symbols[id] = (p.payload.drop 1).take 256 ∧
      (∀ m, m ≠ id → t.store.symbols[m] = s.store.symbols[m]) ∧ t.store.sets = s.store.sets ∧
      t.store.lists = s.store.lists ∧ t.forecast = Port.finish .ok [] ((s.taken .symbolWrite p).port .forecast)) ∧
    (s.render.job ≠ none → ∃ t, exec (.symbolWrite p) s = .next t ∧ t.store = s.store ∧
      t.render.deferred = [.symbol id ((p.payload.drop 1).take 256)] ∧ t.port p.link = (s.taken .symbolWrite p).port p.link)) ∧
  (∀ (s : State) (w : DeferredWrite), s.render.deferred = [w] → s.render.job = none →
    ∃ t, exec .deferredWriteApply s = .next t ∧ t.store = s.store.apply w ∧ t.render.deferred = [] ∧
      t.forecast = Port.finish w.status [] s.forecast)

/-- Every step keeps every field set EMPTY with no roles and empty maps, or DEFINED with a valid geometry, an arrangement of Table 4-2
and full maps in its live and pending banks. -/
def Obligations.FieldSetsLegalKept : Prop :=
  ∀ s t : State, (∀ f : Fin 4, s.store.sets[f].legal) → step s = .next t → ∀ f : Fin 4, t.store.sets[f].legal

/-! ### Timelines and blink generators -/

/-- TIMELINE SET, JUMP and CLEAR: RANGE for a timeline outside 0..3, MOVING during a step, RANGE for a rate code above 7; else SET
stores six clamped parameters and brings s within the span, JUMP sets s within the span, CLEAR empties the counter and the pending
count; the other timelines stay. The reply carries the timeline as it then stands, ADJUSTED where a value was clamped or moved, or a SET
leaves a reverse timeline at rate code 0 (judged on the timeline after the command: DEDUCED, log 23), else OK. -/
def Obligations.TimelineSettings : Prop :=
  (∀ (p : Packet) (s : State), 4 ≤ p.arg.toNat →
    (takes .timelineSet p s = true → exec (.timelineSet p) s = .next ((s.taken .timelineSet p).finish p.link .range [])) ∧
    (takes .timelineJump p s = true → exec (.timelineJump p) s = .next ((s.taken .timelineJump p).finish p.link .range [])) ∧
    (takes .timelineClear p s = true →
      exec (.timelineClear p) s = .next ((s.taken .timelineClear p).finish p.link .range []))) ∧
  (∀ (p : Packet) (s : State) (n : Fin 4), takes .timelineSet p s = true → p.arg.toNat = n.val →
    (s.timelines[n].moving = true →
      exec (.timelineSet p) s = .next ((s.taken .timelineSet p).finish p.link .moving [])) ∧
    (s.timelines[n].moving = false → 7 < fieldNat p.payload 1 1 →
      exec (.timelineSet p) s = .next ((s.taken .timelineSet p).finish p.link .range [])) ∧
    (s.timelines[n].moving = false → fieldNat p.payload 1 1 ≤ 7 →
      ∃ t, exec (.timelineSet p) s = .next t ∧ (∀ m, m ≠ n → t.timelines[m] = s.timelines[m]) ∧
        t.timelines[n] = { s.timelines[n] with
          reverse := (p.payload.getD 0 0).getLsbD 0
          rate := fieldNat p.payload 1 1
          tf := max 1 (min (fieldNat p.payload 2 1) 64)
          lead := min (fieldNat p.payload 3 1) 15
          tr := max 1 (min (fieldNat p.payload 4 1) 64)
          span := max 1 (min (fieldNat p.payload 5 1) 25)
          s := min s.timelines[n].s (max 1 (min (fieldNat p.payload 5 1) 25) - 1) } ∧
        ∃ st, t.port p.link = Port.finish st t.timelines[n].result ((s.taken .timelineSet p).port p.link) ∧
          (st = .ok ∨ st = .adjusted) ∧
          (st = .adjusted ↔ t.timelines[n].tf ≠ fieldNat p.payload 2 1 ∨ t.timelines[n].lead ≠ fieldNat p.payload 3 1 ∨
            t.timelines[n].tr ≠ fieldNat p.payload 4 1 ∨ t.timelines[n].span ≠ fieldNat p.payload 5 1 ∨
            t.timelines[n].s ≠ s.timelines[n].s ∨
            (t.timelines[n].reverse = true ∧ (t.timelines[n].rate = 0 ∨ t.timelines[n].nextRate = some 0))))) ∧
  (∀ (p : Packet) (s : State) (n : Fin 4), takes .timelineJump p s = true → p.arg.toNat = n.val →
    (s.timelines[n].moving = true →
      exec (.timelineJump p) s = .next ((s.taken .timelineJump p).finish p.link .moving [])) ∧
    (s.timelines[n].moving = false → ∃ t, exec (.timelineJump p) s = .next t ∧
      (∀ m, m ≠ n → t.timelines[m] = s.timelines[m]) ∧
      t.timelines[n] = { s.timelines[n] with s := min (fieldNat p.payload 0 1) (s.timelines[n].span - 1) } ∧
      t.port p.link = Port.finish
        (if fieldNat p.payload 0 1 ≤ s.timelines[n].span - 1 then .ok else .adjusted) t.timelines[n].result
        ((s.taken .timelineJump p).port p.link))) ∧
  (∀ (p : Packet) (s : State) (n : Fin 4), takes .timelineClear p s = true → p.arg.toNat = n.val →
    (s.timelines[n].moving = true →
      exec (.timelineClear p) s = .next ((s.taken .timelineClear p).finish p.link .moving [])) ∧
    (s.timelines[n].moving = false → ∃ t, exec (.timelineClear p) s = .next t ∧
      (∀ m, m ≠ n → t.timelines[m] = s.timelines[m]) ∧
      t.timelines[n] = { s.timelines[n] with counter := 0, queued := 0 } ∧
      t.port p.link = Port.finish .ok t.timelines[n].result ((s.taken .timelineClear p).port p.link)))

/-- TIMELINE STEPS, RUN and STOP: RANGE for a timeline outside 0..3, and for a rate code above 7; else in each state STEPS fills the
counter or replaces the pending count, RUN turns run on and takes a rate code, STOP turns run off and lets a step finish; the reply
carries state, s, q, step counter and pending count as they then stand (the bytes' layout is DEDUCED, log 19), for RUN ADJUSTED where it
gave a rate code and the timeline is in reverse with a rate code 0 in force or held (log 23). -/
def Obligations.TimelineRunControl : Prop :=
  (∀ v : Timeline, v.result =
    [match v.state with | .stopped => 0 | .armed => 1 | .stepping => 2 | .stopping => 3, byteOf v.s] ++ bytes2 v.q ++
      [byteOf v.counter, byteOf v.queued]) ∧
  (∀ (p : Packet) (s : State), 4 ≤ p.arg.toNat →
    (takes .timelineSteps p s = true →
      exec (.timelineSteps p) s = .next ((s.taken .timelineSteps p).finish p.link .range [])) ∧
    (takes .timelineRun p s = true → exec (.timelineRun p) s = .next ((s.taken .timelineRun p).finish p.link .range [])) ∧
    (takes .timelineStop p s = true →
      exec (.timelineStop p) s = .next ((s.taken .timelineStop p).finish p.link .range []))) ∧
  (∀ (p : Packet) (s : State) (n : Fin 4), takes .timelineSteps p s = true → p.arg.toNat = n.val →
    let x := min (fieldNat p.payload 0 1) 15
    ∃ t, exec (.timelineSteps p) s = .next t ∧ (∀ m, m ≠ n → t.timelines[m] = s.timelines[m]) ∧
      t.timelines[n] = (if s.timelines[n].counter = 0 then { s.timelines[n] with counter := x }
        else { s.timelines[n] with queued := x }) ∧
      t.port p.link = Port.finish (if x = fieldNat p.payload 0 1 then .ok else .adjusted) t.timelines[n].result
        ((s.taken .timelineSteps p).port p.link)) ∧
  (∀ (p : Packet) (s : State) (n : Fin 4), takes .timelineRun p s = true → p.arg.toNat = n.val →
    (p.payload ≠ [] → 7 < fieldNat p.payload 0 1 →
      exec (.timelineRun p) s = .next ((s.taken .timelineRun p).finish p.link .range [])) ∧
    (p.payload = [] ∨ fieldNat p.payload 0 1 ≤ 7 →
      let rate := if p.payload = [] then none else some (fieldNat p.payload 0 1)
      ∃ t, exec (.timelineRun p) s = .next t ∧ (∀ m, m ≠ n → t.timelines[m] = s.timelines[m]) ∧
        (s.timelines[n].state = .stopped ∨ s.timelines[n].state = .armed →
          t.timelines[n] = { s.timelines[n] with state := .armed, rate := rate.getD s.timelines[n].rate }) ∧
        (s.timelines[n].state = .stepping ∨ s.timelines[n].state = .stopping →
          t.timelines[n] = { s.timelines[n] with state := .stepping, nextRate := rate.or s.timelines[n].nextRate }) ∧
        t.port p.link = Port.finish
          (if p.payload ≠ [] ∧ t.timelines[n].reverse = true ∧
              (t.timelines[n].rate = 0 ∨ t.timelines[n].nextRate = some 0) then .adjusted else .ok)
          t.timelines[n].result ((s.taken .timelineRun p).port p.link))) ∧
  (∀ (p : Packet) (s : State) (n : Fin 4), takes .timelineStop p s = true → p.arg.toNat = n.val →
    ∃ t, exec (.timelineStop p) s = .next t ∧ (∀ m, m ≠ n → t.timelines[m] = s.timelines[m]) ∧
      t.timelines[n] = { s.timelines[n] with
        state := match s.timelines[n].state with
          | .armed => .stopped
          | .stepping => .stopping
          | .stopped => .stopped
          | .stopping => .stopping } ∧
      t.port p.link = Port.finish .ok t.timelines[n].result ((s.taken .timelineStop p).port p.link))

/-- At the frame start at which k reaches P the position moves by one in the timeline's direction, q and k are 0, the counter is one less
or takes up the pending count, a held next-step rate becomes the rate, and the state is STOPPED or ARMED; TIMELINE_END with reason COUNT
is queued only where a STEPPING timeline is left with no steps. The commit comes with FRAME_START, or with its own row ahead of it (the
model's choice, log 6 and log 17). -/
def Obligations.TimelineCommitMoves : Prop :=
  ∀ (s : State) (n : Fin 4), s.timelines[n].legal → s.timelines[n].moving = true →
    s.timelines[n].k + 1 = s.timelines[n].period → FramePart.timeline n ∉ s.ahead →
    let v := s.timelines[n]
    (∃ t, exec (.timelineCommit n) s = .next t ∧ (∀ m, m ≠ n → t.timelines[m] = s.timelines[m]) ∧
      v.committed t.timelines[n] ∧ t.timing.frame = s.dueFrame ∧
      t.studio = if v.state = .stepping ∧ v.counter = 1 ∧ v.queued = 0 then
          Port.notify ((Notice.timelineEnd n .count t.timelines[n].s).packet s.dueFrame) s.studio
        else s.studio) ∧
    ∀ order, ∃ t, exec (.frameStart order) s = .next t ∧ v.committed t.timelines[n] ∧
      s.partNotices (.timeline n) = if v.state = .stepping ∧ v.counter = 1 ∧ v.queued = 0 then
          [(.studio, .timelineEnd n .count t.timelines[n].s)]
        else []

/-- A frame start begins a step of an ARMED timeline with a counter above 0, its period fixed by rate code and direction and k at 1, or
meets the limit of the span, which empties its counts and queues TIMELINE_END with reason LIMIT; a step in progress short of its period
shows the next fraction; a STOPPED timeline, or an ARMED one without steps, stays. Only the limit queues a notice here. -/
def Obligations.FrameStartStepsTimelines : Prop :=
  ∀ (order : List FramePart) (s : State) (n : Fin 4), s.timelines[n].legal → FramePart.timeline n ∉ s.ahead →
    let v := s.timelines[n]
    ∃ t, exec (.frameStart order) s = .next t ∧
      (v.state = .stopped → t.timelines[n] = { v with shown := ⟨v.s, 0, v.reverse, true⟩ }) ∧
      (v.state = .armed → v.counter = 0 → t.timelines[n] = { v with shown := ⟨v.s, 0, v.reverse, true⟩ }) ∧
      (v.state = .armed → v.counter ≠ 0 → (v.reverse = false ∧ v.s + 1 = v.span ∨ v.reverse = true ∧ v.s = 0) →
        t.timelines[n] = { v with counter := 0, queued := 0, shown := ⟨v.s, 0, v.reverse, true⟩ } ∧
          s.partNotices (.timeline n) = [(.studio, .timelineEnd n .limit v.s)]) ∧
      (v.state = .stopped ∨ (v.state = .armed ∧
          (v.counter = 0 ∨ ¬(v.reverse = false ∧ v.s + 1 = v.span ∨ v.reverse = true ∧ v.s = 0))) ∨
          (v.moving = true ∧ v.k + 1 < v.period) → s.partNotices (.timeline n) = []) ∧
      (v.state = .armed → v.counter ≠ 0 → ¬(v.reverse = false ∧ v.s + 1 = v.span ∨ v.reverse = true ∧ v.s = 0) →
        t.timelines[n].state = .stepping ∧ t.timelines[n].k = 1 ∧ t.timelines[n].s = v.s ∧
          t.timelines[n].counter = v.counter ∧ t.timelines[n].q = v.profile 1 ∧
          t.timelines[n].period = (if v.reverse = true ∧ v.rate = 0 then 10 else ratePeriod v.rate) ∧
          t.timelines[n].shown.boundary = false) ∧
      (v.moving = true → v.k + 1 < v.period →
        t.timelines[n].state = v.state ∧ t.timelines[n].k = v.k + 1 ∧ t.timelines[n].s = v.s ∧
          t.timelines[n].q = v.profile (v.k + 1) ∧ t.timelines[n].shown = ⟨v.s, v.profile (v.k + 1), v.reverse, false⟩)

/-- The travel of Tf frames: for k from 1 to Tf the fraction is k x 256 / Tf rounded to the nearest integer, exactly 256 at k = Tf and in
1..255 below; it never falls as k rises, and is 256 for every k above Tf. -/
def Obligations.TravelRisesTo256 : Prop :=
  ∀ tf : Nat, 1 ≤ tf → tf ≤ 64 →
    travel tf tf = 256 ∧ (∀ k, tf < k → travel tf k = 256) ∧
    (∀ k, 1 ≤ k → k ≤ tf → travel tf k = (512 * k + tf) / (2 * tf)) ∧
    (∀ k, 1 ≤ k → k < tf → 1 ≤ travel tf k ∧ travel tf k ≤ 255) ∧
    ∀ k m, k ≤ m → travel tf k ≤ travel tf m

/-- Every step keeps every timeline and every blink generator within the ranges and the relations that the rules give. -/
def Obligations.TimelinesLegalKept : Prop :=
  ∀ s t : State, (∀ n : Fin 4, s.timelines[n].legal) → (∀ b : Fin 4, s.blinks[b].legal) → step s = .next t →
    (∀ n : Fin 4, t.timelines[n].legal) ∧ ∀ b : Fin 4, t.blinks[b].legal

/-- BLINK SET: RANGE for a generator outside 0..3; else the pair is clamped, staged on an enabled generator that it keeps enabled, and
otherwise applied at once with counter 0 and phase ON; the reply carries the flag, the pair in force and the staged pair. At a frame
start an enabled generator counts on, ON below the on-count; at its period it returns to 0, takes up a staged pair and is ON, also by
the row BLINK_CYCLE_END ahead of FRAME_START (the model's choice, log 6); a disabled one stays at 0 and ON. One that was enabled at the
very instant of the frame start, ahead of it, is ON whatever its count (R91 over R88, log 31). -/
def Obligations.BlinkGeneratorsCycle : Prop :=
  (∀ (p : Packet) (s : State), takes .blinkSet p s = true → 4 ≤ p.arg.toNat →
    exec (.blinkSet p) s = .next ((s.taken .blinkSet p).finish p.link .range [])) ∧
  (∀ (p : Packet) (s : State) (n : Fin 4), takes .blinkSet p s = true → p.arg.toNat = n.val →
    let period := max 2 (min (fieldNat p.payload 0 1) 255)
    let onCount := max 1 (min (fieldNat p.payload 1 1) (period - 1))
    let enable := (p.payload.getD 2 0).getLsbD 0
    ∃ t, exec (.blinkSet p) s = .next t ∧ (∀ m, m ≠ n → t.blinks[m] = s.blinks[m]) ∧
      t.blinks[n] = (if s.blinks[n].enabled = true ∧ enable = true then
          { s.blinks[n] with staged := some (period, onCount) }
        else ⟨enable, 0, period, onCount, none, true, if enable = true then some (max s.timing.now p.time) else none⟩) ∧
      t.port p.link = Port.finish
        (if period = fieldNat p.payload 0 1 ∧ onCount = fieldNat p.payload 1 1 then .ok else .adjusted)
        ([flagByte t.blinks[n].enabled, byteOf t.blinks[n].period, byteOf t.blinks[n].onCount] ++
          (match t.blinks[n].staged with | none => [0, 0] | some (a, b) => [byteOf a, byteOf b]))
        ((s.taken .blinkSet p).port p.link)) ∧
  (∀ (s : State) (n : Fin 4), s.blinks[n].legal → s.blinks[n].enabled = true →
    s.blinks[n].counter + 1 = s.blinks[n].period → FramePart.blink n ∉ s.ahead →
    ∃ t, exec (.blinkCycleEnd n) s = .next t ∧ (∀ m, m ≠ n → t.blinks[m] = s.blinks[m]) ∧
      t.blinks[n] = s.blinks[n].cycled ∧ t.timing.frame = s.dueFrame) ∧
  ∀ (order : List FramePart) (s : State) (n : Fin 4), s.blinks[n].legal → FramePart.blink n ∉ s.ahead →
    ∃ t, exec (.frameStart order) s = .next t ∧
      (s.blinks[n].enabled = false → t.blinks[n] = { s.blinks[n] with enabledAt := none }) ∧
      (s.blinks[n].enabled = true → s.blinks[n].counter + 1 = s.blinks[n].period → t.blinks[n] = s.blinks[n].cycled) ∧
      (s.blinks[n].enabled = true → s.blinks[n].counter + 1 ≠ s.blinks[n].period →
        t.blinks[n] = { s.blinks[n] with
          counter := s.blinks[n].counter + 1
          on := decide (s.blinks[n].counter + 1 < s.blinks[n].onCount ∨ s.blinks[n].enabledAt = some t.timing.began)
          enabledAt := none })

/-! ### Field evaluation -/

/-- The blend a + floor(((b - a) x w + 128) / 256) is a at w = 0 and b at w = 256, lies between a and b, is the exact weighted value
rounded to the nearest integer with an exact half rounded upward, is the same from either end, and is a where a equals b. -/
def Obligations.BlendIsTheRoundedValue : Prop :=
  ∀ (a b : Int) (w : Nat), w ≤ 256 →
    blend a b w = a + Int.fdiv ((b - a) * (w : Int) + 128) 256 ∧ blend a b 0 = a ∧ blend a b 256 = b ∧
    min a b ≤ blend a b w ∧ blend a b w ≤ max a b ∧
    256 * blend a b w ≤ 256 * a + (b - a) * (w : Int) + 128 ∧
    256 * a + (b - a) * (w : Int) < 256 * blend a b w + 128 ∧
    blend a b w = blend b a (256 - w) ∧ blend a a w = a

/-- The magnitude is max + floor(3 x min / 8), 0 only for the zero vector; a nonzero vector has a sector in 0..31, the opposite vector
the opposite sector, and a vector along an axis the sector of that axis. -/
def Obligations.SectorsAndMagnitude : Prop :=
  (∀ u v : Int, magnitude u v = max u.natAbs v.natAbs + 3 * min u.natAbs v.natAbs / 8 ∧
    (magnitude u v = 0 ↔ u = 0 ∧ v = 0) ∧ (sectorOf u v = none ↔ u = 0 ∧ v = 0) ∧
    ∀ k, sectorOf u v = some k → k < 32 ∧ sectorOf (-u) (-v) = some ((k + 16) % 32)) ∧
  ∀ v : Int, 0 < v → sectorOf 0 v = some 0 ∧ sectorOf v 0 = some 8 ∧ sectorOf 0 (-v) = some 16 ∧
    sectorOf (-v) 0 = some 24

/-- A wind node is calm exactly below a magnitude of 25; else its pennants, full barbs and half barb add up to the barb speed
floor((m + 25) / 50) x 5 held at 150, and its source sector is opposite its sector. A stream node is slack exactly below the threshold
or with no flow; else its length is floor(m x gain / 256) held to 6..60, and it is overscale exactly where that is above 60. -/
def Obligations.GlyphRecordsFollowTheVector : Prop :=
  ∀ u v : Int,
    ((barbGlyph u v = .calm ↔ magnitude u v < 25) ∧
      ∀ src pennants full half, barbGlyph u v = .wind src pennants full half →
        50 * pennants + 10 * full + 5 * half = min ((magnitude u v + 25) / 50 * 5) 150 ∧ pennants ≤ 3 ∧ full ≤ 4 ∧
          half ≤ 1 ∧ ∃ k, sectorOf u v = some k ∧ src = (k + 16) % 32) ∧
    ∀ gain threshold : Nat,
      (arrowGlyph u v gain threshold = .slack ↔ magnitude u v < threshold ∨ (u = 0 ∧ v = 0)) ∧
      ∀ k l big, arrowGlyph u v gain threshold = .flowing k l big →
        sectorOf u v = some k ∧ l = max 6 (min (magnitude u v * gain / 256) 60) ∧
          (big = true ↔ 60 < magnitude u v * gain / 256)

/-- The height at a point of the grid lies between the least and the greatest of its four corner nodes, and its shade index lies between
the first shade index and 31. -/
def Obligations.ShadingStaysInRange : Prop :=
  (∀ (b : Bank) (g : Geometry) (pos : Position) (cx cy : Nat) (c : GridCell) (lo hi : Int), g.valid = true →
    g.cell cx cy = some c →
    (∀ i j, (i = c.i ∨ i = c.i + 1) → (j = c.j ∨ j = c.j + 1) →
      lo ≤ b.nodeNow g pos i j 0 ∧ b.nodeNow g pos i j 0 ≤ hi) →
    c.i + 1 < g.columns ∧ c.j + 1 < g.rows ∧ c.fx ≤ 256 ∧ c.fy ≤ 256 ∧ lo ≤ b.height g pos c ∧ b.height g pos c ≤ hi) ∧
  ∀ (h base : Int) (step first : Nat), 1 ≤ step → first ≤ 31 →
    first ≤ shadeIndex h base step first ∧ shadeIndex h base step first ≤ min (first + 15) 31

/-! ### The render job -/

/-- The background writes the page's sea index to every pixel of the screen window and index 0 to every pixel of the buffer outside it,
and no other item changes a pixel outside the window. -/
def Obligations.DrawingStaysInTheWindow : Prop :=
  (∀ (r : PageRecord) (x y : Nat), r.view.accepted = true → x < 1920 → y < 1080 →
    Mem.read pixelDefault r.background (y * 1920 + x) =
      if r.view.inWindow (x : Int) (y : Int) = true then r.sea else 0) ∧
  ∀ (j : Job) (store : FieldStore) (ans : Answer) (it : DrawItem) (px : Mem Nat) (x y : Nat),
    j.record.view.accepted = true → Mem.wf pixelDefault px = true → it ≠ .background → x < 1920 → y < 1080 →
    j.record.view.inWindow (x : Int) (y : Int) = false →
    Mem.read pixelDefault (j.drawInto store ans it px) (y * 1920 + x) = Mem.read pixelDefault px (y * 1920 + x)

/-- At a frame start a READY buffer becomes FRONT, and the former front buffer FREE, or RENDERING at once where a job then starts into
it; tags and pixels stay. Where the new front buffer's tag names the LOADED page, an OUTGOING page ends. With a job in flight none starts
and the late flag is set; with none and a page LOADED, a job of that page starts with frame n and every value for frame n captured.
RENDER_RECOVERED is queued where a late renderer swaps, or has no job in flight and no page LOADED; RENDER_LATE where a renderer that was
not late has its job still in flight. -/
def Obligations.FrameStartRunsTheRenderer : Prop :=
  ∀ (order : List FramePart) (s : State), s.render.legal → ∃ t, exec (.frameStart order) s = .next t ∧
    (s.render.bufferA.role = .ready → t.render.bufferA.role = .front) ∧
    (s.render.bufferB.role = .ready → t.render.bufferB.role = .front) ∧
    (∀ w, s.render.hasReady = true → (s.render.buffer w).role = .front →
      (t.render.buffer w).role = if s.pages.loadedRecord.isSome = true then .rendering else .free) ∧
    (∀ w, (t.render.buffer w).tag = (s.render.buffer w).tag ∧ (t.render.buffer w).pixels = (s.render.buffer w).pixels) ∧
    (s.render.hasReady = false → t.render.frontTag = s.render.frontTag) ∧
    t.pages.loaded = s.pages.loaded ∧ t.pages.pages = s.pages.pages ∧
    t.pages.outgoing = (if (s.render.hasReady = true ∧ t.render.frontTag ≠ none ∧ t.render.frontTag = s.pages.loaded) ∨
        (s.output.state ≠ .dark ∧ t.output.state = .dark) then none else s.pages.outgoing) ∧
    s.partNotices .render = (if s.render.late = true ∧ s.render.hasReady = true then
        [(.studio, .renderRecovered t.render.frontTag)]
      else match s.render.job with
        | some j => if s.render.late = true then [] else [(.studio, .renderLate j.page j.frame)]
        | none => if s.render.late = true ∧ s.pages.loaded = none then [(.studio, .renderRecovered none)] else []) ∧
    (∀ j, s.render.job = some j → t.render.job = some j ∧ t.render.late = true) ∧
    (s.render.job = none → s.pages.loaded = none → t.render.job = none ∧ t.render.late = false) ∧
    ∀ p rec, s.render.job = none → s.pages.loaded = some p → s.pages.pages[p] = some rec →
      t.render.late = (s.render.late && !s.render.hasReady) ∧
      ∃ j, t.render.job = some j ∧ j.page = p ∧ j.record = rec ∧ j.frame = s.dueFrame ∧ j.drawn = 0 ∧
        j.fetching = none ∧ j.poisoned = false ∧ j.contentStands = true ∧
        (j.announce = true ↔ s.render.newlyLoaded = some p) ∧
        (∀ n : Fin 4, j.timelines[n] = t.timelines[n].shown) ∧ (∀ b : Fin 4, j.phases[b] = t.blinks[b].on) ∧
        (∀ f : Fin 4, j.captured[f] = if rec.names f = true then t.store.sets[f].capture else none) ∧
        (t.render.buffer j.buffer).role = .rendering

/-- JOB_COMPLETE of a job that has drawn every item: its buffer is READY with its page's tag, or no tag where the content has gone; no job
is in flight; a job with the announce flag announces its page once where the newly loaded mark names it (also where later LOADs took the
mark away and brought it back: the model's choice, log 34); and the work waiting for the gap is done. -/
def Obligations.JobCompletesReady : Prop :=
  ∀ (s : State) (j : Job), s.render.job = some j → j.fetching = none →
    (j.items s.store.lists).length ≤ j.drawn →
    ∃ t, exec .jobComplete s = .next t ∧ t.render.job = none ∧
      t.render.buffer j.buffer =
        { s.render.buffer j.buffer with role := .ready, tag := if j.contentStands then some j.page else none } ∧
      t.render.late = s.render.late ∧ t.chart.working = none ∧
      (s.render.deferred = [] → t.store = s.store) ∧
      (∀ w, s.render.deferred = [w] → t.store = s.store.apply w ∧ t.render.deferred = []) ∧
      (∀ l, (s.port l).holds .cacheRestore = true → (l = .forecast → s.render.deferred = []) →
        (t.port l).slot = none ∧ t.fault.mode = .normal) ∧
      t.render.newlyLoaded =
        (if j.announce = true ∧ s.render.newlyLoaded = some j.page then none else s.render.newlyLoaded) ∧
      (s.render.deferred = [] → (∀ l, (s.port l).holds .cacheRestore = false) →
        t.studio = (if j.announce = true ∧ s.render.newlyLoaded = some j.page then
            Port.notify ((Notice.pageReady j.page).packet s.timing.frame) s.studio else s.studio) ∧
        t.forecast = s.forecast)

/-- TILE_FETCH_COMPLETE of a record that passes: its tile leaves the suspect list, the record is placed in the cache in NORMAL (in the
lowest-numbered invalid entry, else in that of the earliest stamp, with a stamp later than every other) or becomes the working tile in
BYPASS, the job draws the item with it, and the port is free; where a FLASH READ waits, the job draws on to its next fetch, which has the
port ahead of the READ, and the READ takes it where the job comes to none (that drawing takes no time there is the model's choice,
log 21). -/
def Obligations.FetchThatPasses : Prop :=
  (∀ (s : State) (j : Job) (it : DrawItem) (r : TileRequest) (noise : List Byte) (d : Tile), s.fetchingFor j it r →
    s.chart.fetched r.tile noise = some d →
    ∃ u : State, exec (.tileFetchComplete noise) s = .next u.afterFetch ∧ r.tile ∉ u.chart.suspect ∧
      (∀ x, x ≠ r.tile → (x ∈ u.chart.suspect ↔ x ∈ s.chart.suspect)) ∧ u.chart.bad = s.chart.bad ∧
      u.chart.port = none ∧ u.chart.op = s.chart.op ∧ u.fault = s.fault ∧
      u.render.job = some { j with drawn := j.drawn + 1, fetching := none } ∧
      (u.render.buffer j.buffer).pixels =
        j.drawInto s.store (d.answer r) it (s.render.buffer j.buffer).pixels ∧
      (s.fault.mode = .normal → u.chart.cache = cachePlace s.chart.cache r.tile d) ∧
      (s.fault.mode = .bypass → u.chart.working = some (r.tile, d) ∧ u.chart.cache = s.chart.cache)) ∧
  (∀ u : State, u.chart.reading = false → u.afterFetch = u) ∧
  (∀ u : State, u.chart.reading = true → u.chart.port = none → u.render.fetchWaits = false →
    u.afterFetch.render = u.runJob.render ∧ u.afterFetch.chart.op = u.chart.op ∧
      u.afterFetch.chart.port = if u.runJob.render.fetchWaits = true then some .fetch else some .read) ∧
  ∀ (cache : Vector (Option CacheEntry) 64) (tile : Nat) (d : Tile) (i : Fin 64),
    ((cache[i] = none ∧ ∀ k : Fin 64, k < i → cache[k] ≠ none) ∨
      (∃ e, cache[i] = some e ∧ ∀ k : Fin 64, k ≠ i → ∃ x, cache[k] = some x ∧ e.stamp < x.stamp)) →
    (∀ k : Fin 64, k ≠ i → (cachePlace cache tile d)[k] = cache[k]) ∧
      ∃ e, (cachePlace cache tile d)[i] = some e ∧ e.tile = tile ∧ e.decoded = d ∧ e.parityGood = true ∧
        ∀ (k : Fin 64) (x : CacheEntry), cache[k] = some x → x.stamp < e.stamp

/-- TILE_FETCH_COMPLETE of a record that fails: a first failure with room on the suspect list reports TILE_CHECK with the tile and poisons
the job, whose buffer becomes FREE with its tag kept; a further failure, or a full suspect list, reports TILE_BAD with the tile and puts
it on the bad tile list, and the job goes on with sea; a full bad tile list fails the store, reports STORE_FAILED with no tile and poisons
the job. Each fault is captured under R149 with the frame number current and queues FAULT on the forecast link, after CHART_STATE where
the store fails (that order is DEDUCED, log 18); a poisoned job queues FRAME_DISCARDED with the tile on the studio link, and then does the
work that waits for its end. The port is then free (what a waiting FLASH READ makes of that is log 21). -/
def Obligations.FetchThatFails : Prop :=
  ∀ (s : State) (j : Job) (it : DrawItem) (r : TileRequest) (noise : List Byte), s.fetchingFor j it r →
    s.chart.fetched r.tile noise = none →
    let n := s.timing.frame
    let discarded := Port.notify ((Notice.frameDiscarded (some r.tile) j.page j.frame).packet n) s.studio
    ∃ u : State, exec (.tileFetchComplete noise) s = .next u.afterFetch ∧ u.chart.port = none ∧
      (r.tile ∉ s.chart.suspect → s.chart.suspect.length < 8 →
        (∃ q : State, u = q.gapWork ∧ (q.nothingWaits → u = q) ∧
          q.fault = s.fault.capture .tileCheck (some r.tile) n ∧
          q.forecast = Port.notify ((Notice.fault .tileCheck (some r.tile)).packet n) s.forecast ∧
          q.studio = discarded) ∧
        u.chart.suspect = s.chart.suspect ++ [r.tile] ∧ u.chart.bad = s.chart.bad ∧ u.chart.state = .valid ∧
          u.render.job = none ∧ u.fault.record = (s.fault.capture .tileCheck (some r.tile) n).record ∧
          (u.render.buffer j.buffer).role = .free ∧
          (u.render.buffer j.buffer).tag = (s.render.buffer j.buffer).tag) ∧
      ((r.tile ∈ s.chart.suspect ∨ 8 ≤ s.chart.suspect.length) → s.chart.bad.length < 32 →
        u.fault = s.fault.capture .tileBad (some r.tile) n ∧
          u.forecast = Port.notify ((Notice.fault .tileBad (some r.tile)).packet n) s.forecast ∧ u.studio = s.studio ∧
          r.tile ∉ u.chart.suspect ∧ u.chart.bad = s.chart.bad ++ [r.tile] ∧ u.chart.state = .valid ∧
          u.render.job = some { j with drawn := j.drawn + 1, fetching := none } ∧
          (u.render.buffer j.buffer).pixels =
            j.drawInto s.store Answer.sea it (s.render.buffer j.buffer).pixels ∧
          (∀ (i : Fin 64) (e : CacheEntry), u.chart.cache[i] = some e → e.tile ≠ r.tile)) ∧
      ((r.tile ∈ s.chart.suspect ∨ 8 ≤ s.chart.suspect.length) → 32 ≤ s.chart.bad.length →
        (∃ q : State, u = q.gapWork ∧ (q.nothingWaits → u = q) ∧ q.fault = s.fault.capture .storeFailed none n ∧
          q.forecast = Port.notify ((Notice.fault .storeFailed none).packet n)
            (Port.notify ((Notice.chartState .failed).packet n) s.forecast) ∧
          q.studio = discarded) ∧
        u.fault.record = (s.fault.capture .storeFailed none n).record ∧
        u.chart.state = .failed ∧ u.chart.bad = s.chart.bad ∧ u.chart.directory = none ∧ u.render.job = none ∧
          (u.render.buffer j.buffer).role = .free ∧ ∀ i : Fin 64, u.chart.cache[i] = none)

/-- CACHE_HIT_PARITY_ERROR at the job's next item: the entry is invalidated, a SOFT CACHE_PARITY fault with the tile is captured under
R149 and notified, the cache is put in BYPASS where an unread SOFT fault is held, and the job waits for the refetch (that the row
names the corrupted entry is the model's choice, log 15). -/
def Obligations.ParityErrorRefetches : Prop :=
  ∀ (s : State) (j : Job) (it : DrawItem) (rest : List DrawItem) (r : TileRequest) (tile : Fin 256),
    s.render.job = some j → j.fetching = none → (j.items s.store.lists).drop j.drawn = it :: rest →
    j.request it = some r → r.tile = tile.val → s.chart.quickAnswer r = none → s.fault.mode = .normal →
    (cacheIndex s.chart.cache tile.val).isSome = true →
    ∃ t, exec (.cacheHitParityError tile) s = .next t ∧
      t.render.job = some { j with fetching := some tile.val } ∧
      (∀ (i : Fin 64) (e : CacheEntry), t.chart.cache[i] = some e → e.tile ≠ tile.val) ∧
      t.fault = s.fault.capture .cacheParity (some tile.val) s.timing.frame ∧
      (s.fault.escalates .cacheParity = true → t.fault.mode = .bypass ∧ ∀ i : Fin 64, t.chart.cache[i] = none) ∧
      (s.chart.port = none → t.chart.port = some .fetch) ∧ t.chart.suspect = s.chart.suspect ∧
      t.chart.bad = s.chart.bad ∧
      t.forecast = Port.notify ((Notice.fault .cacheParity (some tile.val)).packet s.timing.frame) s.forecast

/-- CACHE RESTORE with no job in flight empties the cache, discards the working tile and sets NORMAL, and its reply carries the mode before
and after; with a job in flight it waits in its slot, and CACHE_RESTORE_APPLY carries it out once no job is in flight
(that this row finds one waiting with no job in flight is the model's choice, log 8). -/
def Obligations.CacheRestoreFlushes : Prop :=
  (∀ (p : Packet) (s : State), takes .cacheRestore p s = true → s.render.job = none →
    ∃ t, exec (.cacheRestore p) s = .next t ∧ (∀ i : Fin 64, t.chart.cache[i] = none) ∧ t.chart.working = none ∧
      t.fault.mode = .normal ∧ t.fault.record = s.fault.record ∧ t.chart.suspect = s.chart.suspect ∧
      t.chart.bad = s.chart.bad ∧ t.chart.state = s.chart.state ∧
      t.port p.link = Port.finish .ok [s.fault.mode.code, 0] ((s.taken .cacheRestore p).port p.link)) ∧
  (∀ (p : Packet) (s : State), takes .cacheRestore p s = true → s.render.job ≠ none →
    exec (.cacheRestore p) s = .next (s.taken .cacheRestore p)) ∧
  ∀ (l : Link) (s : State), s.render.job = none → (s.port l).holds .cacheRestore = true →
    ∃ t, exec (.cacheRestoreApply l) s = .next t ∧ (∀ i : Fin 64, t.chart.cache[i] = none) ∧
      t.chart.working = none ∧ t.fault.mode = .normal ∧ t.fault.record = s.fault.record ∧
      t.port l = Port.finish .ok [s.fault.mode.code, 0] (s.port l)

/-- Every step keeps the buffer roles legal: at most one FRONT and one READY, and RENDERING exactly the buffer that the job in flight
names. -/
def Obligations.BufferRolesKept : Prop :=
  ∀ s t : State, s.render.legal → step s = .next t → t.render.legal

/-! ### Coastline store and faults -/

/-- A reported fault is captured as R149's table gives, with the severity of Table 9-2, and FAULT READ answers the state, severity, kind,
tile, frame number and more flag of the record and the cache mode, each absent one FFh (the bytes' layout is DEDUCED, log 19), and empties
the record alone. -/
def Obligations.FaultRecordFollowsTable : Prop :=
  (∀ (u : FaultUnit) (k : FaultKind) (tile : Option Nat) (n : FrameNumber),
    (u.record = none → u.capture k tile n = ⟨some ⟨k.severity, k, tile, n⟩, false, u.mode⟩) ∧
    (∀ r, u.record = some r → r.severity = .soft → k.severity = .hard →
      u.capture k tile n = ⟨some ⟨.hard, k, tile, n⟩, true, u.mode⟩) ∧
    (∀ r, u.record = some r → r.severity = .soft → k.severity = .soft → u.capture k tile n = ⟨some r, true, .bypass⟩) ∧
    (∀ r, u.record = some r → r.severity = .hard → u.capture k tile n = ⟨some r, true, u.mode⟩) ∧
    (k.severity = .soft ↔ k = .cacheParity)) ∧
  (∀ u : FaultUnit,
    let mode : Byte := match u.mode with | .normal => 0 | .bypass => 1
    (u.record = none → u.result = [0, 0xFF, 0xFF, 0xFF, 0xFF, 0xFF, 0xFF, 0xFF, 0xFF, 0xFF, mode]) ∧
    ∀ r, u.record = some r → u.result =
      ([1, match r.severity with | .soft => 0 | .hard => 1,
        match r.kind with
          | .cacheParity => 0 | .tileCheck => 1 | .tileBad => 2 | .storeFailed => 3 | .directoryCheck => 4] : List Byte) ++
        (match r.tile with | none => [0xFF, 0xFF] | some x => bytes2 x) ++ bytes4 r.frame.toNat ++
        [if u.more = true then 1 else 0, mode]) ∧
  ∀ (p : Packet) (s : State), takes .faultRead p s = true →
    ∃ t, exec (.faultRead p) s = .next t ∧ t.fault.record = none ∧ t.fault.more = false ∧ t.fault.mode = s.fault.mode ∧
      t.port p.link = Port.finish .ok s.fault.result ((s.taken .faultRead p).port p.link)

/-- A held HARD fault record is emptied only by FAULT READ or power-on reset, and is never replaced by another fault: every step that
carries out another command, and every step with an empty queue, in which the drawing may report a fault (the model's choice, log 9 and
log 15), keeps it. -/
def Obligations.HardFaultIsKept : Prop :=
  ∀ (s t : State) (r : FaultRecord), s.fault.record = some r → r.severity = .hard →
    (∀ p rest, s.pending ≠ .faultRead p :: rest) → (∀ high rest, s.pending ≠ .powerOnReset high :: rest) →
    step s = .next t → t.fault.record = some r

/-- The four flash commands: CHART_BUSY with an operation in flight, CHART_IN_USE with a page LOADED for the three that change the flash,
RANGE for an address, length or sector out of range; else the command becomes the operation in flight and holds its slot, and CHART
RESCAN leaves the store SCANNING with its cache and lists empty. -/
def Obligations.FlashCommandsAccepted : Prop :=
  (∀ (p : Packet) (s : State), takes .flashRead p s = true →
    let a := fieldNat p.payload 0 4
    let n := fieldNat p.payload 4 2
    (s.chart.op ≠ none → exec (.flashRead p) s = .next ((s.taken .flashRead p).finish p.link .chartBusy [])) ∧
    (s.chart.op = none → ¬(1 ≤ n ∧ n ≤ 256 ∧ a + n ≤ 16777216) →
      exec (.flashRead p) s = .next ((s.taken .flashRead p).finish p.link .range [])) ∧
    (s.chart.op = none → 1 ≤ n → n ≤ 256 → a + n ≤ 16777216 → ∃ t, exec (.flashRead p) s = .next t ∧
      t.chart = { s.chart with op := some (.read a n), port := s.chart.port.or (some .read) } ∧
      t.port p.link = (s.taken .flashRead p).port p.link)) ∧
  (∀ (p : Packet) (s : State), takes .flashProgram p s = true →
    let a := fieldNat p.payload 0 4
    (s.chart.op ≠ none → exec (.flashProgram p) s = .next ((s.taken .flashProgram p).finish p.link .chartBusy [])) ∧
    (s.chart.op = none → s.pages.loaded ≠ none →
      exec (.flashProgram p) s = .next ((s.taken .flashProgram p).finish p.link .chartInUse [])) ∧
    (s.chart.op = none → s.pages.loaded = none → a % 256 ≠ 0 ∨ 16777216 ≤ a →
      exec (.flashProgram p) s = .next ((s.taken .flashProgram p).finish p.link .range [])) ∧
    (s.chart.op = none → s.pages.loaded = none → a % 256 = 0 → a < 16777216 →
      ∃ t, exec (.flashProgram p) s = .next t ∧
        t.chart = { s.chart with op := some (.program a ((p.payload.drop 4).take 256)) } ∧
        t.port p.link = (s.taken .flashProgram p).port p.link)) ∧
  (∀ (p : Packet) (s : State), takes .flashErase p s = true →
    let k := fieldNat p.payload 0 2
    (s.chart.op ≠ none → exec (.flashErase p) s = .next ((s.taken .flashErase p).finish p.link .chartBusy [])) ∧
    (s.chart.op = none → s.pages.loaded ≠ none →
      exec (.flashErase p) s = .next ((s.taken .flashErase p).finish p.link .chartInUse [])) ∧
    (s.chart.op = none → s.pages.loaded = none → 255 < k →
      exec (.flashErase p) s = .next ((s.taken .flashErase p).finish p.link .range [])) ∧
    (s.chart.op = none → s.pages.loaded = none → k ≤ 255 →
      ∃ t, exec (.flashErase p) s = .next t ∧ t.chart = { s.chart with op := some (.erase k) } ∧
        t.port p.link = (s.taken .flashErase p).port p.link)) ∧
  (∀ (p : Packet) (s : State), takes .chartRescan p s = true →
    (s.chart.op ≠ none → exec (.chartRescan p) s = .next ((s.taken .chartRescan p).finish p.link .chartBusy [])) ∧
    (s.chart.op = none → s.pages.loaded ≠ none →
      exec (.chartRescan p) s = .next ((s.taken .chartRescan p).finish p.link .chartInUse [])) ∧
    (s.chart.op = none → s.pages.loaded = none →
      ∃ t, exec (.chartRescan p) s = .next t ∧ t.chart.state = .scanning ∧ t.chart.op = some (.rescan true) ∧
        t.chart.directory = none ∧ (∀ i : Fin 64, t.chart.cache[i] = none) ∧ t.chart.suspect = [] ∧ t.chart.bad = [] ∧
        t.chart.flash = s.chart.flash ∧ (t.port p.link).slot = some (cmdRecord .chartRescan p)))

/-- FLASH_PROGRAM_COMPLETE: each byte of the page is the AND of its old value and the value supplied where the flash takes every
bit; no bit is ever set; the reply is OK exactly where the page reads back as supplied, else VERIFY_FAILED with the number of bytes
that differ and the offset of the first. FLASH_ERASE_COMPLETE: each byte of the sector is FFh. In every case every other byte stays,
and the store is UNSCANNED with its cache and lists empty. The bits that fail to take are an operand of the row (the model's choice,
log 11), and the reply is queued after the CHART_STATE notice (DEDUCED, log 18). -/
def Obligations.FlashChangesItsPageOrSector : Prop :=
  (∀ (s : State) (a : Nat) (data : List Byte), s.chart.op = some (.program a data) → data.length = 256 →
    s.chart.port ≠ some .fetch → Mem.wf flashDefault s.chart.flash = true →
    ∃ t, exec (.flashProgramComplete []) s = .next t ∧
      (∀ i, i < 256 → t.chart.byte (a + i) = s.chart.byte (a + i) &&& data.getD i 0) ∧
      (∀ b, b < a ∨ a + 256 ≤ b → t.chart.byte b = s.chart.byte b) ∧
      t.chart.state = .unscanned ∧ t.chart.op = none ∧ t.chart.directory = none ∧
      (∀ i : Fin 64, t.chart.cache[i] = none) ∧ t.chart.suspect = [] ∧ t.chart.bad = [] ∧ t.forecast.slot = none) ∧
  (∀ (s : State) (k : Nat), s.chart.op = some (.erase k) → s.chart.port ≠ some .fetch →
    ∃ t, exec .flashEraseComplete s = .next t ∧
      (∀ a, k * 65536 ≤ a → a < (k + 1) * 65536 → t.chart.byte a = 0xFF) ∧
      (∀ a, a < k * 65536 ∨ (k + 1) * 65536 ≤ a → t.chart.byte a = s.chart.byte a) ∧
      t.chart.state = .unscanned ∧ t.chart.op = none ∧ t.chart.directory = none ∧
      (∀ i : Fin 64, t.chart.cache[i] = none) ∧ t.chart.suspect = [] ∧ t.chart.bad = [] ∧ t.forecast.slot = none) ∧
  ∀ (s : State) (a : Nat) (data fails : List Byte), s.chart.op = some (.program a data) → data.length = 256 →
    s.chart.port ≠ some .fetch → Mem.wf flashDefault s.chart.flash = true →
    let u := if s.chart.state = .unscanned then s.forecast
      else Port.notify ((Notice.chartState .unscanned).packet s.timing.frame) s.forecast
    ∃ t, exec (.flashProgramComplete fails) s = .next t ∧
      (∀ b, t.chart.byte b &&& s.chart.byte b = t.chart.byte b) ∧
      (∀ b, b < a ∨ a + 256 ≤ b → t.chart.byte b = s.chart.byte b) ∧
      t.chart.state = .unscanned ∧ t.chart.op = none ∧ t.chart.directory = none ∧
      (∀ i : Fin 64, t.chart.cache[i] = none) ∧ t.chart.suspect = [] ∧ t.chart.bad = [] ∧ t.forecast.slot = none ∧
      ((∀ i, i < 256 → t.chart.byte (a + i) = data.getD i 0) →
        t.forecast = Port.finish .ok [] u) ∧
      (∀ i, i < 256 → t.chart.byte (a + i) ≠ data.getD i 0 →
        (∀ k, k < i → t.chart.byte (a + k) = data.getD k 0) →
        t.forecast = Port.finish .verifyFailed
          (bytes2 ((List.range 256).filter fun k => t.chart.byte (a + k) ≠ data.getD k 0).length ++ [byteOf i]) u)

/-- FLASH_READ_COMPLETE answers with the bytes that the transfer delivers and frees the port for a waiting fetch; SCAN_COMPLETE makes a good
directory the image of a VALID store and leaves a bad one ABSENT, reporting DIRECTORY_CHECK for a CHART RESCAN alone. -/
def Obligations.ReadAndScanComplete : Prop :=
  (∀ (s : State) (a n : Nat) (noise : List Byte), s.chart.op = some (.read a n) → s.chart.port = some .read →
    ∃ t, exec (.flashReadComplete noise) s = .next t ∧
      t.chart = { s.chart with op := none, port := if s.render.fetchWaits = true then some .fetch else none } ∧
      t.forecast = Port.finish .ok (s.chart.transfer a n noise) s.forecast) ∧
  (∀ (s : State) (commanded : Bool) (noise : List Byte), s.chart.op = some (.rescan commanded) →
    s.chart.port ≠ some .fetch →
    ∃ t, exec (.scanComplete noise) s = .next t ∧ t.chart.op = none ∧ t.chart.flash = s.chart.flash ∧
      (∀ d, parseDirectory (s.chart.transfer 0 1542 noise) = some d →
        t.chart.directory = some d ∧ t.chart.state = .valid ∧ t.fault = s.fault) ∧
      (parseDirectory (s.chart.transfer 0 1542 noise) = none →
        t.chart.directory = none ∧ t.chart.state = .absent ∧
          (commanded = false → t.fault = s.fault) ∧
          (commanded = true → t.fault = s.fault.capture .directoryCheck none s.timing.frame)) ∧
      (commanded = true → t.forecast.slot = none))

/-! ### Link ports -/

/-- The header code: a header that is encoded decodes as good and gives back every field; one error in any of the 32 positions is
corrected to it; two errors are lost. -/
def Obligations.HeaderCodeCorrectsOneError : Prop :=
  ∀ h : Header, decodeHeader (encodeHeader h) = .good (encodeHeader h) ∧ headerFields (encodeHeader h) = h ∧
    (∀ i, i < 32 → decodeHeader (invertPosition (encodeHeader h) i) = .corrected (encodeHeader h)) ∧
    ∀ i k, i < 32 → k < 32 → i ≠ k → decodeHeader (invertPosition (invertPosition (encodeHeader h) i) k) = .lost

/-- START_BYTE and HEADER_RECEIVED: in HUNTING a start byte opens an empty packet in HEADER; in HEADER a good or corrected header with
direction 0 and a length up to 1024 is used, and every other header is dropped with its flag. A packet row brings what is left of its
packet (the model's choice, log 5): with the header received it is complete exactly where that header is its own, so that the payload has
the length that the header gives; a receiver that hunts and holds nothing, or stands in HEADER, takes a whole packet of up to 1024 payload
bytes; a line at space takes none. -/
def Obligations.ReceiverFindsPackets : Prop :=
  (∀ (l : Link) (s : State), (s.port l).held = false →
    ((s.port l).rx = .hunting →
      exec (.startByte l) s = .next (s.setPort l { s.port l with rx := .header, packet := some ⟨[], none⟩ })) ∧
    ((s.port l).rx ≠ .hunting → exec (.startByte l) s = .next s)) ∧
  (∀ (l : Link) (s : State) (w : HeaderWord), (s.port l).held = false → (s.port l).rx = .header →
    ∃ t, exec (.headerReceived l w) s = .next t ∧
      (decodeHeader w = .lost → (t.port l).rx = .hunting ∧ (t.port l).packet = none ∧
        (t.port l).summary = { (s.port l).summary with headerLost := true }) ∧
      ∀ v, (decodeHeader w = .good v ∨ decodeHeader w = .corrected v) →
        (1024 < (headerFields v).length.toNat → (t.port l).rx = .hunting ∧ (t.port l).packet = none ∧
          (t.port l).summary.headerLost = true) ∧
        ((headerFields v).length.toNat ≤ 1024 → (headerFields v).away = true → (t.port l).rx = .hunting ∧
          (t.port l).packet = none ∧ (t.port l).summary.direction = true) ∧
        ((headerFields v).length.toNat ≤ 1024 → (headerFields v).away = false →
          (t.port l).packet = some ⟨headerBytes v, some (headerFields v)⟩ ∧
          ((t.port l).rx = .hunting ↔ (headerFields v).length = 0) ∧
          ((t.port l).rx = .payload ↔ (headerFields v).length ≠ 0) ∧
          (t.port l).summary = { (s.port l).summary with
            headerCorrected := (s.port l).summary.headerCorrected || decide (decodeHeader w = .corrected v) })) ∧
  ∀ (r : Port) (code : BitVec 7) (p : Packet), p.payload.length ≤ 1024 →
    let own : Header := ⟨false, code, p.tag, BitVec.ofNat 11 p.payload.length, p.arg⟩
    (r.held = true → r.completes code p = false) ∧
    (r.held = false → r.rx = .hunting → r.packet = none → r.completes code p = true) ∧
    (r.held = false → r.rx = .header → r.completes code p = true) ∧
    ∀ w h, r.held = false → r.rx ≠ .header → r.packet = some ⟨headerBytes w, some h⟩ →
      (r.completes code p = true ↔ h = own)

/-- FRAMING_ERROR, RECEIVE_TIMEOUT, LINE_BREAK and LINE_BREAK_END act on the port of their link alone, as R158, R159 and R170 give. -/
def Obligations.LineFaultsResetTheReceiver : Prop :=
  ∀ (l : Link) (s : State),
    ((s.port l).held = false → exec (.framingError l) s = .next (s.setPort l { s.port l with
      rx := .hunting, packet := none, summary := { (s.port l).summary with framing := true } })) ∧
    ((s.port l).rx ≠ .hunting → exec (.receiveTimeout l) s = .next (s.setPort l { s.port l with
      rx := .hunting, packet := none, summary := { (s.port l).summary with timeout := true } })) ∧
    ((s.port l).held = false → exec (.lineBreak l) s = .next (s.setPort l { s.port l with
      rx := .hunting, packet := none, held := true, queue := [], tx := none, summary := Summary.empty
      suppressed := (s.port l).suppressed || (s.port l).slot.isSome })) ∧
    ((s.port l).held = true → exec (.lineBreakEnd l) s = .next (s.setPort l
      (Port.pump { s.port l with rx := .hunting, packet := none, held := false })))

/-- A notice or a reply that finds the line free and nothing queued goes into transmission at once. TRANSMIT_END: the line is free, and
the transmitter takes the oldest reply, or the oldest notice where the queue holds no reply; the packets left keep their order. A reply
takes the error summary with it and empties it; a full queue loses its newest notice to the reply, which carries NOTICE_LOST; a queue
full of replies drops it with REPLY_LOST; a suppressed reply is not queued; the slot is free in every case. A notice that finds the
queue full is dropped with NOTICE_LOST. -/
def Obligations.TransmitQueueKeepsItsOrder : Prop :=
  (∀ (l : Link) (s : State), (s.port l).held = false → (s.port l).tx ≠ none →
    ∃ t, exec (.transmitEnd l) s = .next t ∧
      ((s.port l).queue = [] → (t.port l).tx = none ∧ (t.port l).queue = []) ∧
      (∀ (a : List TxPacket) (x : TxPacket) (b : List TxPacket), (s.port l).queue = a ++ x :: b →
        x.isNotice = false → (∀ y ∈ a, y.isNotice = true) → (t.port l).tx = some x ∧ (t.port l).queue = a ++ b) ∧
      (∀ (x : TxPacket) (b : List TxPacket), (s.port l).queue = x :: b → (∀ y ∈ x :: b, y.isNotice = true) →
        (t.port l).tx = some x ∧ (t.port l).queue = b)) ∧
  (∀ (p : Port) (c : CmdRecord) (st : Status) (r : List Byte), p.answers c →
    (Port.finish st r p).slot = none ∧
    (p.queue.length < 8 → (Port.finish st r p).summary = Summary.empty ∧
      (Port.finish st r p).queue = p.queue ++ [⟨false, c.kind.code, c.tag, c.arg, st.code :: p.summary.byte :: r⟩]) ∧
    (∀ (a : List TxPacket) (x : TxPacket) (b : List TxPacket), 8 ≤ p.queue.length → p.queue = a ++ x :: b →
      x.isNotice = true → (∀ y ∈ b, y.isNotice = false) → (Port.finish st r p).summary = Summary.empty ∧
      (Port.finish st r p).queue = a ++ b ++ [⟨false, c.kind.code, c.tag, c.arg,
        st.code :: { p.summary with noticeLost := true }.byte :: r⟩]) ∧
    (8 ≤ p.queue.length → (∀ y ∈ p.queue, y.isNotice = false) →
      (Port.finish st r p).queue = p.queue ∧ (Port.finish st r p).summary = { p.summary with replyLost := true })) ∧
  (∀ (p : Port) (c : CmdRecord) (st : Status) (r : List Byte), p.slot = some c → p.suppressed = true →
    Port.finish st r p = { p with slot := none, suppressed := false }) ∧
  (∀ (p : Port), p.held = false → p.tx = none → p.queue = [] →
    (∀ n : TxPacket, Port.notify n p = { p with tx := some n }) ∧
    ∀ (c : CmdRecord) (st : Status) (r : List Byte), p.slot = some c → p.suppressed = false →
      Port.finish st r p = { p with
        slot := none, summary := Summary.empty
        tx := some ⟨false, c.kind.code, c.tag, c.arg, st.code :: p.summary.byte :: r⟩ }) ∧
  ∀ (p : Port) (n : TxPacket),
    (p.queue.length < 8 → p.tx.isSome = true → Port.notify n p = { p with queue := p.queue ++ [n] }) ∧
    (8 ≤ p.queue.length → Port.notify n p = { p with summary := { p.summary with noticeLost := true } })

/-- A complete packet is answered BUSY while the slot is busy; else an unknown kind is answered UNKNOWN, and a command that fails a
check of the port is answered ROLE, LENGTH or DATA_ERROR, in that order, with the slot left free; one that passes is taken and its
owner acts. This holds of each of the 35 packet commands. Which packet is complete at its row, and that the row of one that is not
changes nothing, is the model's choice (log 5), though R159 lets the bytes of such a packet move the receiver; for a line at space
it is DEDUCED (log 29). -/
def Obligations.PortRefusesInOrder : Prop :=
  (∀ (k : Kind) (p : Packet) (own : Packet → State → State) (s : State), (s.port p.link).completes k.code p = true →
    ((s.port p.link).slot ≠ none → serve k p own s = (s.arrive p).refuse k.code p .busy) ∧
    ((s.port p.link).slot = none →
      (k.permitted p.link = false → serve k p own s = (s.arrive p).refuse k.code p .role) ∧
      (k.permitted p.link = true → lengthPermitted k p s = false →
        serve k p own s = (s.arrive p).refuse k.code p .length) ∧
      (k.permitted p.link = true → lengthPermitted k p s = true → p.payload ≠ [] → crc16 p.payload ≠ p.crc →
        serve k p own s = (s.arrive p).refuse k.code p .dataError) ∧
      (k.permitted p.link = true → lengthPermitted k p s = true → p.payload = [] ∨ crc16 p.payload = p.crc →
        serve k p own s = own p (s.taken k p)))) ∧
  (∀ (k : Kind) (p : Packet), ∃ own : Packet → State → State, ∀ s, exec (k.command p) s = .next (serve k p own s)) ∧
  (∀ (k : Kind) (p : Packet) (s : State), (s.port p.link).completes k.code p = true →
    ((s.port p.link).slot ≠ none → exec (k.command p) s = .next ((s.arrive p).refuse k.code p .busy)) ∧
    ((s.port p.link).slot = none →
      (k.permitted p.link = false → exec (k.command p) s = .next ((s.arrive p).refuse k.code p .role)) ∧
      (k.permitted p.link = true → lengthPermitted k p s = false →
        exec (k.command p) s = .next ((s.arrive p).refuse k.code p .length)) ∧
      (k.permitted p.link = true → lengthPermitted k p s = true → p.payload ≠ [] → crc16 p.payload ≠ p.crc →
        exec (k.command p) s = .next ((s.arrive p).refuse k.code p .dataError)))) ∧
  (∀ (k : Kind) (p : Packet) (s : State), (s.port p.link).completes k.code p = false →
    exec (k.command p) s = .next s) ∧
  ∀ (kind : BitVec 7) (p : Packet) (s : State), kindOfCode kind = none →
    ((s.port p.link).completes kind p = true → exec (.unknownPacket kind p) s = .next ((s.arrive p).refuse kind p
      (if (s.port p.link).slot = none then .unknown else .busy))) ∧
    ((s.port p.link).completes kind p = false → exec (.unknownPacket kind p) s = .next s)

/-- STATUS is answered OK with 34 bytes: the frame number, the reference state, the frame rate, the output state, the key level, the
LOADED page, the OUTGOING page and the front buffer's page tag (FFh where absent), the render state, the late flag, for T0 to T3 the
state, s and q, the store state, the cache mode, and whether the fault record and each memo slot is held; where a row has entered the
frame start now due, the bytes are those after the whole of it (the model's choice, log 6). ECHO is answered OK with its payload
unchanged. -/
def Obligations.StatusAndEchoAnswer : Prop :=
  (∀ (p : Packet) (s : State), takes .status p s = true → s.ahead = [] →
    exec (.status p) s = .next ((s.taken .status p).finish p.link .ok s.statusBytes)) ∧
  (∀ (p : Packet) (s : State) (order : List FramePart), takes .status p s = true → s.ahead ≠ [] →
    ∃ u, exec (.frameStart order) (s.taken .status p) = .next u ∧
      exec (.status p) s = .next ((s.taken .status p).finish p.link .ok u.statusBytes)) ∧
  (∀ s : State,
    let r := s.statusBytes
    r.length = 34 ∧ r.take 4 = bytes4 s.timing.frame.toNat ∧
    r.getD 4 0 = (match s.timing.refState with | .free => 0 | .acquire => 1 | .locked => 2 | .holdover => 3) ∧
    r.getD 5 0 = (match s.timing.rate with | .fps50 => 0 | .fps5994 => 1) ∧
    r.getD 6 0 = (match s.output.state with | .dark => 0 | .fadeIn => 1 | .onAir => 2 | .fadeOut => 3) ∧
    r.getD 7 0 = (byteOf (s.output.acc / 256)) ∧
    r.getD 8 0 = (match s.pages.loaded with | none => 0xFF | some n => byteOf n.val) ∧
    r.getD 9 0 = (match s.pages.outgoing with | none => 0xFF | some n => byteOf n.val) ∧
    r.getD 10 0 = (match s.render.frontTag with | none => 0xFF | some n => byteOf n.val) ∧
    r.getD 11 0 = (match s.render.job with | none => 0 | some _ => 1) ∧
    r.getD 12 0 = (if s.render.late = true then 1 else 0) ∧
    (∀ n : Fin 4,
      r.getD (13 + 4 * n.val) 0 = (match s.timelines[n].state with
        | .stopped => 0 | .armed => 1 | .stepping => 2 | .stopping => 3) ∧
      r.getD (14 + 4 * n.val) 0 = (byteOf s.timelines[n].s) ∧
      (r.drop (15 + 4 * n.val)).take 2 = bytes2 s.timelines[n].q) ∧
    r.getD 29 0 = (match s.chart.state with
      | .scanning => 0 | .valid => 1 | .absent => 2 | .unscanned => 3 | .failed => 4) ∧
    r.getD 30 0 = (match s.fault.mode with | .normal => 0 | .bypass => 1) ∧
    r.getD 31 0 = (match s.fault.record with | none => 0 | some _ => 1) ∧
    r.getD 32 0 = (match s.memo.forecastToStudio with | none => 0 | some _ => 1) ∧
    r.getD 33 0 = (match s.memo.studioToForecast with | none => 0 | some _ => 1)) ∧
  ∀ (p : Packet) (s : State), takes .echo p s = true →
    exec (.echo p) s = .next ((s.taken .echo p).finish p.link .ok p.payload)

/-! ### Memo unit -/

/-- MEMO POST fills the poster's slot with its clamped countdown and notifies the receiver, or is refused SLOT_FULL; MEMO TAKE answers and
empties the incoming slot (the layout of its result is DEDUCED, log 19); MEMO WITHDRAW empties the outgoing slot; each answers EMPTY on an
empty slot; the other slot never changes. A frame start decrements a countdown, and one that ends empties the slot and notifies the
poster, also by the row MEMO_EXPIRY ahead of FRAME_START (the model's choice, log 6 and log 17). -/
def Obligations.MemoCommandsActOnTheirSlot : Prop :=
  (∀ (p : Packet) (s : State), takes .memoPost p s = true →
    let d := postSlot p.link
    let a := min (fieldNat p.payload 0 2) 3000
    let countdown := if a = 0 then none else some a
    (s.memoSlot d ≠ none → exec (.memoPost p) s = .next ((s.taken .memoPost p).finish p.link .slotFull [])) ∧
    (s.memoSlot d = none → ∃ t, exec (.memoPost p) s = .next t ∧
      t.memoSlot d = some ⟨p.payload.drop 2, countdown⟩ ∧ (∀ e, e ≠ d → t.memoSlot e = s.memoSlot e) ∧
      t.port (slotReceiver d) = Port.notify
        ((Notice.memoWaiting d (p.payload.length - 2) countdown).packet s.timing.frame) (s.port (slotReceiver d)) ∧
      t.port p.link = Port.finish (if a = fieldNat p.payload 0 2 then .ok else .adjusted) (countdownBytes countdown)
        ((s.taken .memoPost p).port p.link))) ∧
  (∀ (p : Packet) (s : State), takes .memoTake p s = true →
    let d := takeSlot p.link
    (s.memoSlot d = none → exec (.memoTake p) s = .next ((s.taken .memoTake p).finish p.link .empty [])) ∧
    ∀ m, s.memoSlot d = some m → ∃ t, exec (.memoTake p) s = .next t ∧ t.memoSlot d = none ∧
      (∀ e, e ≠ d → t.memoSlot e = s.memoSlot e) ∧
      t.port p.link = Port.finish .ok (m.body ++ byteOf m.body.length :: countdownBytes m.countdown)
        ((s.taken .memoTake p).port p.link)) ∧
  (∀ (p : Packet) (s : State), takes .memoWithdraw p s = true →
    let d := postSlot p.link
    (s.memoSlot d = none → exec (.memoWithdraw p) s = .next ((s.taken .memoWithdraw p).finish p.link .empty [])) ∧
    (s.memoSlot d ≠ none → ∃ t, exec (.memoWithdraw p) s = .next t ∧ t.memoSlot d = none ∧
      (∀ e, e ≠ d → t.memoSlot e = s.memoSlot e) ∧
      t.port p.link = Port.finish .ok [] ((s.taken .memoWithdraw p).port p.link))) ∧
  (∀ (s : State) (d : MemoDir) (body : List Byte), s.memoSlot d = some ⟨body, some 1⟩ → FramePart.memo d ∉ s.ahead →
    (∃ t, exec (.memoExpiry d) s = .next t ∧ t.memoSlot d = none ∧ (∀ e, e ≠ d → t.memoSlot e = s.memoSlot e) ∧
      t.timing.frame = s.dueFrame ∧
      t.port (slotPoster d) = Port.notify ((Notice.memoExpired d).packet s.dueFrame) (s.port (slotPoster d))) ∧
    ∀ order, ∃ t, exec (.frameStart order) s = .next t ∧ t.memoSlot d = none ∧
      s.partNotices (.memo d) = [(slotPoster d, .memoExpired d)]) ∧
  ∀ (order : List FramePart) (s : State) (d : MemoDir), FramePart.memo d ∉ s.ahead →
    ∃ t, exec (.frameStart order) s = .next t ∧
      (s.memoSlot d = none → t.memoSlot d = none ∧ s.partNotices (.memo d) = []) ∧
      (∀ body, s.memoSlot d = some ⟨body, none⟩ → t.memoSlot d = some ⟨body, none⟩ ∧ s.partNotices (.memo d) = []) ∧
      ∀ body n, 2 ≤ n → s.memoSlot d = some ⟨body, some n⟩ →
        t.memoSlot d = some ⟨body, some (n - 1)⟩ ∧ s.partNotices (.memo d) = []
end

