-- ==== Sys2Proof/Laws/State.lean ====
section
/-! SUPPORT. What one write of each block of the state leaves and changes, field by field. -/

namespace Sys2Proof.Machine

variable (s : State)

/-! ### setTiming -/

@[simp] theorem State.setTiming_timing (v) : (s.setTiming v).timing = v := rfl
@[simp] theorem State.setTiming_output (v) : (s.setTiming v).output = s.output := rfl
@[simp] theorem State.setTiming_pages (v) : (s.setTiming v).pages = s.pages := rfl
@[simp] theorem State.setTiming_store (v) : (s.setTiming v).store = s.store := rfl
@[simp] theorem State.setTiming_timelines (v) : (s.setTiming v).timelines = s.timelines := rfl
@[simp] theorem State.setTiming_blinks (v) : (s.setTiming v).blinks = s.blinks := rfl
@[simp] theorem State.setTiming_render (v) : (s.setTiming v).render = s.render := rfl
@[simp] theorem State.setTiming_chart (v) : (s.setTiming v).chart = s.chart := rfl
@[simp] theorem State.setTiming_fault (v) : (s.setTiming v).fault = s.fault := rfl
@[simp] theorem State.setTiming_forecast (v) : (s.setTiming v).forecast = s.forecast := rfl
@[simp] theorem State.setTiming_studio (v) : (s.setTiming v).studio = s.studio := rfl
@[simp] theorem State.setTiming_memo (v) : (s.setTiming v).memo = s.memo := rfl
@[simp] theorem State.setTiming_ahead (v) : (s.setTiming v).ahead = s.ahead := rfl
@[simp] theorem State.setTiming_freeCount (v) : (s.setTiming v).freeCount = s.freeCount := rfl
@[simp] theorem State.setTiming_pending (v) : (s.setTiming v).pending = s.pending := rfl
@[simp] theorem State.setTiming_port (v) (l : Link) : (s.setTiming v).port l = s.port l := by cases l <;> rfl

/-! ### setOutput -/

@[simp] theorem State.setOutput_timing (v) : (s.setOutput v).timing = s.timing := rfl
@[simp] theorem State.setOutput_output (v) : (s.setOutput v).output = v := rfl
@[simp] theorem State.setOutput_pages (v) : (s.setOutput v).pages = s.pages := rfl
@[simp] theorem State.setOutput_store (v) : (s.setOutput v).store = s.store := rfl
@[simp] theorem State.setOutput_timelines (v) : (s.setOutput v).timelines = s.timelines := rfl
@[simp] theorem State.setOutput_blinks (v) : (s.setOutput v).blinks = s.blinks := rfl
@[simp] theorem State.setOutput_render (v) : (s.setOutput v).render = s.render := rfl
@[simp] theorem State.setOutput_chart (v) : (s.setOutput v).chart = s.chart := rfl
@[simp] theorem State.setOutput_fault (v) : (s.setOutput v).fault = s.fault := rfl
@[simp] theorem State.setOutput_forecast (v) : (s.setOutput v).forecast = s.forecast := rfl
@[simp] theorem State.setOutput_studio (v) : (s.setOutput v).studio = s.studio := rfl
@[simp] theorem State.setOutput_memo (v) : (s.setOutput v).memo = s.memo := rfl
@[simp] theorem State.setOutput_ahead (v) : (s.setOutput v).ahead = s.ahead := rfl
@[simp] theorem State.setOutput_freeCount (v) : (s.setOutput v).freeCount = s.freeCount := rfl
@[simp] theorem State.setOutput_pending (v) : (s.setOutput v).pending = s.pending := rfl
@[simp] theorem State.setOutput_port (v) (l : Link) : (s.setOutput v).port l = s.port l := by cases l <;> rfl

/-! ### setPages -/

@[simp] theorem State.setPages_timing (v) : (s.setPages v).timing = s.timing := rfl
@[simp] theorem State.setPages_output (v) : (s.setPages v).output = s.output := rfl
@[simp] theorem State.setPages_pages (v) : (s.setPages v).pages = v := rfl
@[simp] theorem State.setPages_store (v) : (s.setPages v).store = s.store := rfl
@[simp] theorem State.setPages_timelines (v) : (s.setPages v).timelines = s.timelines := rfl
@[simp] theorem State.setPages_blinks (v) : (s.setPages v).blinks = s.blinks := rfl
@[simp] theorem State.setPages_render (v) : (s.setPages v).render = s.render := rfl
@[simp] theorem State.setPages_chart (v) : (s.setPages v).chart = s.chart := rfl
@[simp] theorem State.setPages_fault (v) : (s.setPages v).fault = s.fault := rfl
@[simp] theorem State.setPages_forecast (v) : (s.setPages v).forecast = s.forecast := rfl
@[simp] theorem State.setPages_studio (v) : (s.setPages v).studio = s.studio := rfl
@[simp] theorem State.setPages_memo (v) : (s.setPages v).memo = s.memo := rfl
@[simp] theorem State.setPages_ahead (v) : (s.setPages v).ahead = s.ahead := rfl
@[simp] theorem State.setPages_freeCount (v) : (s.setPages v).freeCount = s.freeCount := rfl
@[simp] theorem State.setPages_pending (v) : (s.setPages v).pending = s.pending := rfl
@[simp] theorem State.setPages_port (v) (l : Link) : (s.setPages v).port l = s.port l := by cases l <;> rfl

/-! ### setStore -/

@[simp] theorem State.setStore_timing (v) : (s.setStore v).timing = s.timing := rfl
@[simp] theorem State.setStore_output (v) : (s.setStore v).output = s.output := rfl
@[simp] theorem State.setStore_pages (v) : (s.setStore v).pages = s.pages := rfl
@[simp] theorem State.setStore_store (v) : (s.setStore v).store = v := rfl
@[simp] theorem State.setStore_timelines (v) : (s.setStore v).timelines = s.timelines := rfl
@[simp] theorem State.setStore_blinks (v) : (s.setStore v).blinks = s.blinks := rfl
@[simp] theorem State.setStore_render (v) : (s.setStore v).render = s.render := rfl
@[simp] theorem State.setStore_chart (v) : (s.setStore v).chart = s.chart := rfl
@[simp] theorem State.setStore_fault (v) : (s.setStore v).fault = s.fault := rfl
@[simp] theorem State.setStore_forecast (v) : (s.setStore v).forecast = s.forecast := rfl
@[simp] theorem State.setStore_studio (v) : (s.setStore v).studio = s.studio := rfl
@[simp] theorem State.setStore_memo (v) : (s.setStore v).memo = s.memo := rfl
@[simp] theorem State.setStore_ahead (v) : (s.setStore v).ahead = s.ahead := rfl
@[simp] theorem State.setStore_freeCount (v) : (s.setStore v).freeCount = s.freeCount := rfl
@[simp] theorem State.setStore_pending (v) : (s.setStore v).pending = s.pending := rfl
@[simp] theorem State.setStore_port (v) (l : Link) : (s.setStore v).port l = s.port l := by cases l <;> rfl

/-! ### setTimelines -/

@[simp] theorem State.setTimelines_timing (v) : (s.setTimelines v).timing = s.timing := rfl
@[simp] theorem State.setTimelines_output (v) : (s.setTimelines v).output = s.output := rfl
@[simp] theorem State.setTimelines_pages (v) : (s.setTimelines v).pages = s.pages := rfl
@[simp] theorem State.setTimelines_store (v) : (s.setTimelines v).store = s.store := rfl
@[simp] theorem State.setTimelines_timelines (v) : (s.setTimelines v).timelines = v := rfl
@[simp] theorem State.setTimelines_blinks (v) : (s.setTimelines v).blinks = s.blinks := rfl
@[simp] theorem State.setTimelines_render (v) : (s.setTimelines v).render = s.render := rfl
@[simp] theorem State.setTimelines_chart (v) : (s.setTimelines v).chart = s.chart := rfl
@[simp] theorem State.setTimelines_fault (v) : (s.setTimelines v).fault = s.fault := rfl
@[simp] theorem State.setTimelines_forecast (v) : (s.setTimelines v).forecast = s.forecast := rfl
@[simp] theorem State.setTimelines_studio (v) : (s.setTimelines v).studio = s.studio := rfl
@[simp] theorem State.setTimelines_memo (v) : (s.setTimelines v).memo = s.memo := rfl
@[simp] theorem State.setTimelines_ahead (v) : (s.setTimelines v).ahead = s.ahead := rfl
@[simp] theorem State.setTimelines_freeCount (v) : (s.setTimelines v).freeCount = s.freeCount := rfl
@[simp] theorem State.setTimelines_pending (v) : (s.setTimelines v).pending = s.pending := rfl
@[simp] theorem State.setTimelines_port (v) (l : Link) : (s.setTimelines v).port l = s.port l := by cases l <;> rfl

/-! ### setBlinks -/

@[simp] theorem State.setBlinks_timing (v) : (s.setBlinks v).timing = s.timing := rfl
@[simp] theorem State.setBlinks_output (v) : (s.setBlinks v).output = s.output := rfl
@[simp] theorem State.setBlinks_pages (v) : (s.setBlinks v).pages = s.pages := rfl
@[simp] theorem State.setBlinks_store (v) : (s.setBlinks v).store = s.store := rfl
@[simp] theorem State.setBlinks_timelines (v) : (s.setBlinks v).timelines = s.timelines := rfl
@[simp] theorem State.setBlinks_blinks (v) : (s.setBlinks v).blinks = v := rfl
@[simp] theorem State.setBlinks_render (v) : (s.setBlinks v).render = s.render := rfl
@[simp] theorem State.setBlinks_chart (v) : (s.setBlinks v).chart = s.chart := rfl
@[simp] theorem State.setBlinks_fault (v) : (s.setBlinks v).fault = s.fault := rfl
@[simp] theorem State.setBlinks_forecast (v) : (s.setBlinks v).forecast = s.forecast := rfl
@[simp] theorem State.setBlinks_studio (v) : (s.setBlinks v).studio = s.studio := rfl
@[simp] theorem State.setBlinks_memo (v) : (s.setBlinks v).memo = s.memo := rfl
@[simp] theorem State.setBlinks_ahead (v) : (s.setBlinks v).ahead = s.ahead := rfl
@[simp] theorem State.setBlinks_freeCount (v) : (s.setBlinks v).freeCount = s.freeCount := rfl
@[simp] theorem State.setBlinks_pending (v) : (s.setBlinks v).pending = s.pending := rfl
@[simp] theorem State.setBlinks_port (v) (l : Link) : (s.setBlinks v).port l = s.port l := by cases l <;> rfl

/-! ### setRender -/

@[simp] theorem State.setRender_timing (v) : (s.setRender v).timing = s.timing := rfl
@[simp] theorem State.setRender_output (v) : (s.setRender v).output = s.output := rfl
@[simp] theorem State.setRender_pages (v) : (s.setRender v).pages = s.pages := rfl
@[simp] theorem State.setRender_store (v) : (s.setRender v).store = s.store := rfl
@[simp] theorem State.setRender_timelines (v) : (s.setRender v).timelines = s.timelines := rfl
@[simp] theorem State.setRender_blinks (v) : (s.setRender v).blinks = s.blinks := rfl
@[simp] theorem State.setRender_render (v) : (s.setRender v).render = v := rfl
@[simp] theorem State.setRender_chart (v) : (s.setRender v).chart = s.chart := rfl
@[simp] theorem State.setRender_fault (v) : (s.setRender v).fault = s.fault := rfl
@[simp] theorem State.setRender_forecast (v) : (s.setRender v).forecast = s.forecast := rfl
@[simp] theorem State.setRender_studio (v) : (s.setRender v).studio = s.studio := rfl
@[simp] theorem State.setRender_memo (v) : (s.setRender v).memo = s.memo := rfl
@[simp] theorem State.setRender_ahead (v) : (s.setRender v).ahead = s.ahead := rfl
@[simp] theorem State.setRender_freeCount (v) : (s.setRender v).freeCount = s.freeCount := rfl
@[simp] theorem State.setRender_pending (v) : (s.setRender v).pending = s.pending := rfl
@[simp] theorem State.setRender_port (v) (l : Link) : (s.setRender v).port l = s.port l := by cases l <;> rfl

/-! ### setChart -/

@[simp] theorem State.setChart_timing (v) : (s.setChart v).timing = s.timing := rfl
@[simp] theorem State.setChart_output (v) : (s.setChart v).output = s.output := rfl
@[simp] theorem State.setChart_pages (v) : (s.setChart v).pages = s.pages := rfl
@[simp] theorem State.setChart_store (v) : (s.setChart v).store = s.store := rfl
@[simp] theorem State.setChart_timelines (v) : (s.setChart v).timelines = s.timelines := rfl
@[simp] theorem State.setChart_blinks (v) : (s.setChart v).blinks = s.blinks := rfl
@[simp] theorem State.setChart_render (v) : (s.setChart v).render = s.render := rfl
@[simp] theorem State.setChart_chart (v) : (s.setChart v).chart = v := rfl
@[simp] theorem State.setChart_fault (v) : (s.setChart v).fault = s.fault := rfl
@[simp] theorem State.setChart_forecast (v) : (s.setChart v).forecast = s.forecast := rfl
@[simp] theorem State.setChart_studio (v) : (s.setChart v).studio = s.studio := rfl
@[simp] theorem State.setChart_memo (v) : (s.setChart v).memo = s.memo := rfl
@[simp] theorem State.setChart_ahead (v) : (s.setChart v).ahead = s.ahead := rfl
@[simp] theorem State.setChart_freeCount (v) : (s.setChart v).freeCount = s.freeCount := rfl
@[simp] theorem State.setChart_pending (v) : (s.setChart v).pending = s.pending := rfl
@[simp] theorem State.setChart_port (v) (l : Link) : (s.setChart v).port l = s.port l := by cases l <;> rfl

/-! ### setFault -/

@[simp] theorem State.setFault_timing (v) : (s.setFault v).timing = s.timing := rfl
@[simp] theorem State.setFault_output (v) : (s.setFault v).output = s.output := rfl
@[simp] theorem State.setFault_pages (v) : (s.setFault v).pages = s.pages := rfl
@[simp] theorem State.setFault_store (v) : (s.setFault v).store = s.store := rfl
@[simp] theorem State.setFault_timelines (v) : (s.setFault v).timelines = s.timelines := rfl
@[simp] theorem State.setFault_blinks (v) : (s.setFault v).blinks = s.blinks := rfl
@[simp] theorem State.setFault_render (v) : (s.setFault v).render = s.render := rfl
@[simp] theorem State.setFault_chart (v) : (s.setFault v).chart = s.chart := rfl
@[simp] theorem State.setFault_fault (v) : (s.setFault v).fault = v := rfl
@[simp] theorem State.setFault_forecast (v) : (s.setFault v).forecast = s.forecast := rfl
@[simp] theorem State.setFault_studio (v) : (s.setFault v).studio = s.studio := rfl
@[simp] theorem State.setFault_memo (v) : (s.setFault v).memo = s.memo := rfl
@[simp] theorem State.setFault_ahead (v) : (s.setFault v).ahead = s.ahead := rfl
@[simp] theorem State.setFault_freeCount (v) : (s.setFault v).freeCount = s.freeCount := rfl
@[simp] theorem State.setFault_pending (v) : (s.setFault v).pending = s.pending := rfl
@[simp] theorem State.setFault_port (v) (l : Link) : (s.setFault v).port l = s.port l := by cases l <;> rfl

/-! ### setMemo -/

@[simp] theorem State.setMemo_timing (v) : (s.setMemo v).timing = s.timing := rfl
@[simp] theorem State.setMemo_output (v) : (s.setMemo v).output = s.output := rfl
@[simp] theorem State.setMemo_pages (v) : (s.setMemo v).pages = s.pages := rfl
@[simp] theorem State.setMemo_store (v) : (s.setMemo v).store = s.store := rfl
@[simp] theorem State.setMemo_timelines (v) : (s.setMemo v).timelines = s.timelines := rfl
@[simp] theorem State.setMemo_blinks (v) : (s.setMemo v).blinks = s.blinks := rfl
@[simp] theorem State.setMemo_render (v) : (s.setMemo v).render = s.render := rfl
@[simp] theorem State.setMemo_chart (v) : (s.setMemo v).chart = s.chart := rfl
@[simp] theorem State.setMemo_fault (v) : (s.setMemo v).fault = s.fault := rfl
@[simp] theorem State.setMemo_forecast (v) : (s.setMemo v).forecast = s.forecast := rfl
@[simp] theorem State.setMemo_studio (v) : (s.setMemo v).studio = s.studio := rfl
@[simp] theorem State.setMemo_memo (v) : (s.setMemo v).memo = v := rfl
@[simp] theorem State.setMemo_ahead (v) : (s.setMemo v).ahead = s.ahead := rfl
@[simp] theorem State.setMemo_freeCount (v) : (s.setMemo v).freeCount = s.freeCount := rfl
@[simp] theorem State.setMemo_pending (v) : (s.setMemo v).pending = s.pending := rfl
@[simp] theorem State.setMemo_port (v) (l : Link) : (s.setMemo v).port l = s.port l := by cases l <;> rfl

/-! ### setAhead -/

@[simp] theorem State.setAhead_timing (v) : (s.setAhead v).timing = s.timing := rfl
@[simp] theorem State.setAhead_output (v) : (s.setAhead v).output = s.output := rfl
@[simp] theorem State.setAhead_pages (v) : (s.setAhead v).pages = s.pages := rfl
@[simp] theorem State.setAhead_store (v) : (s.setAhead v).store = s.store := rfl
@[simp] theorem State.setAhead_timelines (v) : (s.setAhead v).timelines = s.timelines := rfl
@[simp] theorem State.setAhead_blinks (v) : (s.setAhead v).blinks = s.blinks := rfl
@[simp] theorem State.setAhead_render (v) : (s.setAhead v).render = s.render := rfl
@[simp] theorem State.setAhead_chart (v) : (s.setAhead v).chart = s.chart := rfl
@[simp] theorem State.setAhead_fault (v) : (s.setAhead v).fault = s.fault := rfl
@[simp] theorem State.setAhead_forecast (v) : (s.setAhead v).forecast = s.forecast := rfl
@[simp] theorem State.setAhead_studio (v) : (s.setAhead v).studio = s.studio := rfl
@[simp] theorem State.setAhead_memo (v) : (s.setAhead v).memo = s.memo := rfl
@[simp] theorem State.setAhead_ahead (v) : (s.setAhead v).ahead = v := rfl
@[simp] theorem State.setAhead_freeCount (v) : (s.setAhead v).freeCount = s.freeCount := rfl
@[simp] theorem State.setAhead_pending (v) : (s.setAhead v).pending = s.pending := rfl
@[simp] theorem State.setAhead_port (v) (l : Link) : (s.setAhead v).port l = s.port l := by cases l <;> rfl

/-! ### withPending -/

@[simp] theorem State.withPending_timing (v) : (s.withPending v).timing = s.timing := rfl
@[simp] theorem State.withPending_output (v) : (s.withPending v).output = s.output := rfl
@[simp] theorem State.withPending_pages (v) : (s.withPending v).pages = s.pages := rfl
@[simp] theorem State.withPending_store (v) : (s.withPending v).store = s.store := rfl
@[simp] theorem State.withPending_timelines (v) : (s.withPending v).timelines = s.timelines := rfl
@[simp] theorem State.withPending_blinks (v) : (s.withPending v).blinks = s.blinks := rfl
@[simp] theorem State.withPending_render (v) : (s.withPending v).render = s.render := rfl
@[simp] theorem State.withPending_chart (v) : (s.withPending v).chart = s.chart := rfl
@[simp] theorem State.withPending_fault (v) : (s.withPending v).fault = s.fault := rfl
@[simp] theorem State.withPending_forecast (v) : (s.withPending v).forecast = s.forecast := rfl
@[simp] theorem State.withPending_studio (v) : (s.withPending v).studio = s.studio := rfl
@[simp] theorem State.withPending_memo (v) : (s.withPending v).memo = s.memo := rfl
@[simp] theorem State.withPending_ahead (v) : (s.withPending v).ahead = s.ahead := rfl
@[simp] theorem State.withPending_freeCount (v) : (s.withPending v).freeCount = s.freeCount := rfl
@[simp] theorem State.withPending_pending (v) : (s.withPending v).pending = v := rfl
@[simp] theorem State.withPending_port (v) (l : Link) : (s.withPending v).port l = s.port l := by cases l <;> rfl

/-! ### setPort -/

@[simp] theorem State.setPort_timing (l : Link) (v) : (s.setPort l v).timing = s.timing := by cases l <;> rfl
@[simp] theorem State.setPort_output (l : Link) (v) : (s.setPort l v).output = s.output := by cases l <;> rfl
@[simp] theorem State.setPort_pages (l : Link) (v) : (s.setPort l v).pages = s.pages := by cases l <;> rfl
@[simp] theorem State.setPort_store (l : Link) (v) : (s.setPort l v).store = s.store := by cases l <;> rfl
@[simp] theorem State.setPort_timelines (l : Link) (v) : (s.setPort l v).timelines = s.timelines := by cases l <;> rfl
@[simp] theorem State.setPort_blinks (l : Link) (v) : (s.setPort l v).blinks = s.blinks := by cases l <;> rfl
@[simp] theorem State.setPort_render (l : Link) (v) : (s.setPort l v).render = s.render := by cases l <;> rfl
@[simp] theorem State.setPort_chart (l : Link) (v) : (s.setPort l v).chart = s.chart := by cases l <;> rfl
@[simp] theorem State.setPort_fault (l : Link) (v) : (s.setPort l v).fault = s.fault := by cases l <;> rfl
@[simp] theorem State.setPort_memo (l : Link) (v) : (s.setPort l v).memo = s.memo := by cases l <;> rfl
@[simp] theorem State.setPort_ahead (l : Link) (v) : (s.setPort l v).ahead = s.ahead := by cases l <;> rfl
@[simp] theorem State.setPort_freeCount (l : Link) (v) : (s.setPort l v).freeCount = s.freeCount := by cases l <;> rfl
@[simp] theorem State.setPort_pending (l : Link) (v) : (s.setPort l v).pending = s.pending := by cases l <;> rfl
@[simp] theorem State.setPort_port (l : Link) (v) : (s.setPort l v).port l = v := by cases l <;> rfl
theorem State.setPort_port_other {l m : Link} (h : m ≠ l) (v) : (s.setPort l v).port m = s.port m := by
  cases l <;> cases m <;> first | rfl | exact absurd rfl h
@[simp] theorem State.setPort_forecast (v) : (s.setPort .forecast v).forecast = v := rfl
@[simp] theorem State.setPort_studio (v) : (s.setPort .studio v).studio = v := rfl

/-! ### mapPort -/

@[simp] theorem State.mapPort_timing (l : Link) (g : Port → Port) : (s.mapPort l g).timing = s.timing :=
  State.setPort_timing s _ _
@[simp] theorem State.mapPort_output (l : Link) (g : Port → Port) : (s.mapPort l g).output = s.output :=
  State.setPort_output s _ _
@[simp] theorem State.mapPort_pages (l : Link) (g : Port → Port) : (s.mapPort l g).pages = s.pages :=
  State.setPort_pages s _ _
@[simp] theorem State.mapPort_store (l : Link) (g : Port → Port) : (s.mapPort l g).store = s.store :=
  State.setPort_store s _ _
@[simp] theorem State.mapPort_timelines (l : Link) (g : Port → Port) : (s.mapPort l g).timelines = s.timelines :=
  State.setPort_timelines s _ _
@[simp] theorem State.mapPort_blinks (l : Link) (g : Port → Port) : (s.mapPort l g).blinks = s.blinks :=
  State.setPort_blinks s _ _
@[simp] theorem State.mapPort_render (l : Link) (g : Port → Port) : (s.mapPort l g).render = s.render :=
  State.setPort_render s _ _
@[simp] theorem State.mapPort_chart (l : Link) (g : Port → Port) : (s.mapPort l g).chart = s.chart :=
  State.setPort_chart s _ _
@[simp] theorem State.mapPort_fault (l : Link) (g : Port → Port) : (s.mapPort l g).fault = s.fault :=
  State.setPort_fault s _ _
@[simp] theorem State.mapPort_memo (l : Link) (g : Port → Port) : (s.mapPort l g).memo = s.memo :=
  State.setPort_memo s _ _
@[simp] theorem State.mapPort_ahead (l : Link) (g : Port → Port) : (s.mapPort l g).ahead = s.ahead :=
  State.setPort_ahead s _ _
@[simp] theorem State.mapPort_freeCount (l : Link) (g : Port → Port) : (s.mapPort l g).freeCount = s.freeCount :=
  State.setPort_freeCount s _ _
@[simp] theorem State.mapPort_pending (l : Link) (g : Port → Port) : (s.mapPort l g).pending = s.pending :=
  State.setPort_pending s _ _

/-! ### notify -/

@[simp] theorem State.notify_timing (l : Link) (n : Notice) : (s.notify l n).timing = s.timing :=
  State.setPort_timing s _ _
@[simp] theorem State.notify_output (l : Link) (n : Notice) : (s.notify l n).output = s.output :=
  State.setPort_output s _ _
@[simp] theorem State.notify_pages (l : Link) (n : Notice) : (s.notify l n).pages = s.pages :=
  State.setPort_pages s _ _
@[simp] theorem State.notify_store (l : Link) (n : Notice) : (s.notify l n).store = s.store :=
  State.setPort_store s _ _
@[simp] theorem State.notify_timelines (l : Link) (n : Notice) : (s.notify l n).timelines = s.timelines :=
  State.setPort_timelines s _ _
@[simp] theorem State.notify_blinks (l : Link) (n : Notice) : (s.notify l n).blinks = s.blinks :=
  State.setPort_blinks s _ _
@[simp] theorem State.notify_render (l : Link) (n : Notice) : (s.notify l n).render = s.render :=
  State.setPort_render s _ _
@[simp] theorem State.notify_chart (l : Link) (n : Notice) : (s.notify l n).chart = s.chart :=
  State.setPort_chart s _ _
@[simp] theorem State.notify_fault (l : Link) (n : Notice) : (s.notify l n).fault = s.fault :=
  State.setPort_fault s _ _
@[simp] theorem State.notify_memo (l : Link) (n : Notice) : (s.notify l n).memo = s.memo :=
  State.setPort_memo s _ _
@[simp] theorem State.notify_ahead (l : Link) (n : Notice) : (s.notify l n).ahead = s.ahead :=
  State.setPort_ahead s _ _
@[simp] theorem State.notify_freeCount (l : Link) (n : Notice) : (s.notify l n).freeCount = s.freeCount :=
  State.setPort_freeCount s _ _
@[simp] theorem State.notify_pending (l : Link) (n : Notice) : (s.notify l n).pending = s.pending :=
  State.setPort_pending s _ _

/-! ### finish -/

@[simp] theorem State.finish_timing (l : Link) (st : Status) (r : List Byte) : (s.finish l st r).timing = s.timing :=
  State.setPort_timing s _ _
@[simp] theorem State.finish_output (l : Link) (st : Status) (r : List Byte) : (s.finish l st r).output = s.output :=
  State.setPort_output s _ _
@[simp] theorem State.finish_pages (l : Link) (st : Status) (r : List Byte) : (s.finish l st r).pages = s.pages :=
  State.setPort_pages s _ _
@[simp] theorem State.finish_store (l : Link) (st : Status) (r : List Byte) : (s.finish l st r).store = s.store :=
  State.setPort_store s _ _
@[simp] theorem State.finish_timelines (l : Link) (st : Status) (r : List Byte) : (s.finish l st r).timelines = s.timelines :=
  State.setPort_timelines s _ _
@[simp] theorem State.finish_blinks (l : Link) (st : Status) (r : List Byte) : (s.finish l st r).blinks = s.blinks :=
  State.setPort_blinks s _ _
@[simp] theorem State.finish_render (l : Link) (st : Status) (r : List Byte) : (s.finish l st r).render = s.render :=
  State.setPort_render s _ _
@[simp] theorem State.finish_chart (l : Link) (st : Status) (r : List Byte) : (s.finish l st r).chart = s.chart :=
  State.setPort_chart s _ _
@[simp] theorem State.finish_fault (l : Link) (st : Status) (r : List Byte) : (s.finish l st r).fault = s.fault :=
  State.setPort_fault s _ _
@[simp] theorem State.finish_memo (l : Link) (st : Status) (r : List Byte) : (s.finish l st r).memo = s.memo :=
  State.setPort_memo s _ _
@[simp] theorem State.finish_ahead (l : Link) (st : Status) (r : List Byte) : (s.finish l st r).ahead = s.ahead :=
  State.setPort_ahead s _ _
@[simp] theorem State.finish_freeCount (l : Link) (st : Status) (r : List Byte) : (s.finish l st r).freeCount = s.freeCount :=
  State.setPort_freeCount s _ _
@[simp] theorem State.finish_pending (l : Link) (st : Status) (r : List Byte) : (s.finish l st r).pending = s.pending :=
  State.setPort_pending s _ _

/-! ### refuse -/

@[simp] theorem State.refuse_timing (code : BitVec 7) (p : Packet) (st : Status) : (s.refuse code p st).timing = s.timing :=
  State.setPort_timing s _ _
@[simp] theorem State.refuse_output (code : BitVec 7) (p : Packet) (st : Status) : (s.refuse code p st).output = s.output :=
  State.setPort_output s _ _
@[simp] theorem State.refuse_pages (code : BitVec 7) (p : Packet) (st : Status) : (s.refuse code p st).pages = s.pages :=
  State.setPort_pages s _ _
@[simp] theorem State.refuse_store (code : BitVec 7) (p : Packet) (st : Status) : (s.refuse code p st).store = s.store :=
  State.setPort_store s _ _
@[simp] theorem State.refuse_timelines (code : BitVec 7) (p : Packet) (st : Status) : (s.refuse code p st).timelines = s.timelines :=
  State.setPort_timelines s _ _
@[simp] theorem State.refuse_blinks (code : BitVec 7) (p : Packet) (st : Status) : (s.refuse code p st).blinks = s.blinks :=
  State.setPort_blinks s _ _
@[simp] theorem State.refuse_render (code : BitVec 7) (p : Packet) (st : Status) : (s.refuse code p st).render = s.render :=
  State.setPort_render s _ _
@[simp] theorem State.refuse_chart (code : BitVec 7) (p : Packet) (st : Status) : (s.refuse code p st).chart = s.chart :=
  State.setPort_chart s _ _
@[simp] theorem State.refuse_fault (code : BitVec 7) (p : Packet) (st : Status) : (s.refuse code p st).fault = s.fault :=
  State.setPort_fault s _ _
@[simp] theorem State.refuse_memo (code : BitVec 7) (p : Packet) (st : Status) : (s.refuse code p st).memo = s.memo :=
  State.setPort_memo s _ _
@[simp] theorem State.refuse_ahead (code : BitVec 7) (p : Packet) (st : Status) : (s.refuse code p st).ahead = s.ahead :=
  State.setPort_ahead s _ _
@[simp] theorem State.refuse_freeCount (code : BitVec 7) (p : Packet) (st : Status) : (s.refuse code p st).freeCount = s.freeCount :=
  State.setPort_freeCount s _ _
@[simp] theorem State.refuse_pending (code : BitVec 7) (p : Packet) (st : Status) : (s.refuse code p st).pending = s.pending :=
  State.setPort_pending s _ _

@[simp] theorem State.mapPort_port (l : Link) (g : Port → Port) : (s.mapPort l g).port l = g (s.port l) :=
  State.setPort_port s _ _
theorem State.mapPort_port_other {l m : Link} (h : m ≠ l) (g : Port → Port) : (s.mapPort l g).port m = s.port m :=
  State.setPort_port_other s h _
@[simp] theorem State.notify_port (l : Link) (n : Notice) :
    (s.notify l n).port l = Port.notify (n.packet s.timing.frame) (s.port l) := State.setPort_port s _ _
theorem State.notify_port_other {l m : Link} (h : m ≠ l) (n : Notice) : (s.notify l n).port m = s.port m :=
  State.setPort_port_other s h _
@[simp] theorem State.finish_port (l : Link) (st : Status) (r : List Byte) :
    (s.finish l st r).port l = Port.finish st r (s.port l) := State.setPort_port s _ _
theorem State.finish_port_other {l m : Link} (h : m ≠ l) (st : Status) (r : List Byte) :
    (s.finish l st r).port m = s.port m := State.setPort_port_other s h _
theorem State.port_forecast : s.port .forecast = s.forecast := rfl
theorem State.port_studio : s.port .studio = s.studio := rfl

/-! ### setTimeline -/

@[simp] theorem State.setTimeline_timing (t : Fin 4) (v : Timeline) : (s.setTimeline t v).timing = s.timing := rfl
@[simp] theorem State.setTimeline_output (t : Fin 4) (v : Timeline) : (s.setTimeline t v).output = s.output := rfl
@[simp] theorem State.setTimeline_pages (t : Fin 4) (v : Timeline) : (s.setTimeline t v).pages = s.pages := rfl
@[simp] theorem State.setTimeline_store (t : Fin 4) (v : Timeline) : (s.setTimeline t v).store = s.store := rfl
@[simp] theorem State.setTimeline_blinks (t : Fin 4) (v : Timeline) : (s.setTimeline t v).blinks = s.blinks := rfl
@[simp] theorem State.setTimeline_render (t : Fin 4) (v : Timeline) : (s.setTimeline t v).render = s.render := rfl
@[simp] theorem State.setTimeline_chart (t : Fin 4) (v : Timeline) : (s.setTimeline t v).chart = s.chart := rfl
@[simp] theorem State.setTimeline_fault (t : Fin 4) (v : Timeline) : (s.setTimeline t v).fault = s.fault := rfl
@[simp] theorem State.setTimeline_forecast (t : Fin 4) (v : Timeline) : (s.setTimeline t v).forecast = s.forecast := rfl
@[simp] theorem State.setTimeline_studio (t : Fin 4) (v : Timeline) : (s.setTimeline t v).studio = s.studio := rfl
@[simp] theorem State.setTimeline_memo (t : Fin 4) (v : Timeline) : (s.setTimeline t v).memo = s.memo := rfl
@[simp] theorem State.setTimeline_ahead (t : Fin 4) (v : Timeline) : (s.setTimeline t v).ahead = s.ahead := rfl
@[simp] theorem State.setTimeline_freeCount (t : Fin 4) (v : Timeline) : (s.setTimeline t v).freeCount = s.freeCount := rfl
@[simp] theorem State.setTimeline_pending (t : Fin 4) (v : Timeline) : (s.setTimeline t v).pending = s.pending := rfl
@[simp] theorem State.setTimeline_port (t : Fin 4) (v : Timeline) (l : Link) : (s.setTimeline t v).port l = s.port l := by cases l <;> rfl

/-! ### setBlink -/

@[simp] theorem State.setBlink_timing (b : Fin 4) (v : Blink) : (s.setBlink b v).timing = s.timing := rfl
@[simp] theorem State.setBlink_output (b : Fin 4) (v : Blink) : (s.setBlink b v).output = s.output := rfl
@[simp] theorem State.setBlink_pages (b : Fin 4) (v : Blink) : (s.setBlink b v).pages = s.pages := rfl
@[simp] theorem State.setBlink_store (b : Fin 4) (v : Blink) : (s.setBlink b v).store = s.store := rfl
@[simp] theorem State.setBlink_timelines (b : Fin 4) (v : Blink) : (s.setBlink b v).timelines = s.timelines := rfl
@[simp] theorem State.setBlink_render (b : Fin 4) (v : Blink) : (s.setBlink b v).render = s.render := rfl
@[simp] theorem State.setBlink_chart (b : Fin 4) (v : Blink) : (s.setBlink b v).chart = s.chart := rfl
@[simp] theorem State.setBlink_fault (b : Fin 4) (v : Blink) : (s.setBlink b v).fault = s.fault := rfl
@[simp] theorem State.setBlink_forecast (b : Fin 4) (v : Blink) : (s.setBlink b v).forecast = s.forecast := rfl
@[simp] theorem State.setBlink_studio (b : Fin 4) (v : Blink) : (s.setBlink b v).studio = s.studio := rfl
@[simp] theorem State.setBlink_memo (b : Fin 4) (v : Blink) : (s.setBlink b v).memo = s.memo := rfl
@[simp] theorem State.setBlink_ahead (b : Fin 4) (v : Blink) : (s.setBlink b v).ahead = s.ahead := rfl
@[simp] theorem State.setBlink_freeCount (b : Fin 4) (v : Blink) : (s.setBlink b v).freeCount = s.freeCount := rfl
@[simp] theorem State.setBlink_pending (b : Fin 4) (v : Blink) : (s.setBlink b v).pending = s.pending := rfl
@[simp] theorem State.setBlink_port (b : Fin 4) (v : Blink) (l : Link) : (s.setBlink b v).port l = s.port l := by cases l <;> rfl

/-! ### setFieldSet -/

@[simp] theorem State.setFieldSet_timing (f : Fin 4) (v : FieldSet) : (s.setFieldSet f v).timing = s.timing := rfl
@[simp] theorem State.setFieldSet_output (f : Fin 4) (v : FieldSet) : (s.setFieldSet f v).output = s.output := rfl
@[simp] theorem State.setFieldSet_pages (f : Fin 4) (v : FieldSet) : (s.setFieldSet f v).pages = s.pages := rfl
@[simp] theorem State.setFieldSet_timelines (f : Fin 4) (v : FieldSet) : (s.setFieldSet f v).timelines = s.timelines := rfl
@[simp] theorem State.setFieldSet_blinks (f : Fin 4) (v : FieldSet) : (s.setFieldSet f v).blinks = s.blinks := rfl
@[simp] theorem State.setFieldSet_render (f : Fin 4) (v : FieldSet) : (s.setFieldSet f v).render = s.render := rfl
@[simp] theorem State.setFieldSet_chart (f : Fin 4) (v : FieldSet) : (s.setFieldSet f v).chart = s.chart := rfl
@[simp] theorem State.setFieldSet_fault (f : Fin 4) (v : FieldSet) : (s.setFieldSet f v).fault = s.fault := rfl
@[simp] theorem State.setFieldSet_forecast (f : Fin 4) (v : FieldSet) : (s.setFieldSet f v).forecast = s.forecast := rfl
@[simp] theorem State.setFieldSet_studio (f : Fin 4) (v : FieldSet) : (s.setFieldSet f v).studio = s.studio := rfl
@[simp] theorem State.setFieldSet_memo (f : Fin 4) (v : FieldSet) : (s.setFieldSet f v).memo = s.memo := rfl
@[simp] theorem State.setFieldSet_ahead (f : Fin 4) (v : FieldSet) : (s.setFieldSet f v).ahead = s.ahead := rfl
@[simp] theorem State.setFieldSet_freeCount (f : Fin 4) (v : FieldSet) : (s.setFieldSet f v).freeCount = s.freeCount := rfl
@[simp] theorem State.setFieldSet_pending (f : Fin 4) (v : FieldSet) : (s.setFieldSet f v).pending = s.pending := rfl
@[simp] theorem State.setFieldSet_port (f : Fin 4) (v : FieldSet) (l : Link) : (s.setFieldSet f v).port l = s.port l := by cases l <;> rfl

/-! ### setJob -/

@[simp] theorem State.setJob_timing (j : Option Job) : (s.setJob j).timing = s.timing := rfl
@[simp] theorem State.setJob_output (j : Option Job) : (s.setJob j).output = s.output := rfl
@[simp] theorem State.setJob_pages (j : Option Job) : (s.setJob j).pages = s.pages := rfl
@[simp] theorem State.setJob_store (j : Option Job) : (s.setJob j).store = s.store := rfl
@[simp] theorem State.setJob_timelines (j : Option Job) : (s.setJob j).timelines = s.timelines := rfl
@[simp] theorem State.setJob_blinks (j : Option Job) : (s.setJob j).blinks = s.blinks := rfl
@[simp] theorem State.setJob_chart (j : Option Job) : (s.setJob j).chart = s.chart := rfl
@[simp] theorem State.setJob_fault (j : Option Job) : (s.setJob j).fault = s.fault := rfl
@[simp] theorem State.setJob_forecast (j : Option Job) : (s.setJob j).forecast = s.forecast := rfl
@[simp] theorem State.setJob_studio (j : Option Job) : (s.setJob j).studio = s.studio := rfl
@[simp] theorem State.setJob_memo (j : Option Job) : (s.setJob j).memo = s.memo := rfl
@[simp] theorem State.setJob_ahead (j : Option Job) : (s.setJob j).ahead = s.ahead := rfl
@[simp] theorem State.setJob_freeCount (j : Option Job) : (s.setJob j).freeCount = s.freeCount := rfl
@[simp] theorem State.setJob_pending (j : Option Job) : (s.setJob j).pending = s.pending := rfl
@[simp] theorem State.setJob_port (j : Option Job) (l : Link) : (s.setJob j).port l = s.port l := by cases l <;> rfl

/-! ### markAhead -/

@[simp] theorem State.markAhead_timing (h : FramePart) : (s.markAhead h).timing = s.timing := rfl
@[simp] theorem State.markAhead_output (h : FramePart) : (s.markAhead h).output = s.output := rfl
@[simp] theorem State.markAhead_pages (h : FramePart) : (s.markAhead h).pages = s.pages := rfl
@[simp] theorem State.markAhead_store (h : FramePart) : (s.markAhead h).store = s.store := rfl
@[simp] theorem State.markAhead_timelines (h : FramePart) : (s.markAhead h).timelines = s.timelines := rfl
@[simp] theorem State.markAhead_blinks (h : FramePart) : (s.markAhead h).blinks = s.blinks := rfl
@[simp] theorem State.markAhead_render (h : FramePart) : (s.markAhead h).render = s.render := rfl
@[simp] theorem State.markAhead_chart (h : FramePart) : (s.markAhead h).chart = s.chart := rfl
@[simp] theorem State.markAhead_fault (h : FramePart) : (s.markAhead h).fault = s.fault := rfl
@[simp] theorem State.markAhead_forecast (h : FramePart) : (s.markAhead h).forecast = s.forecast := rfl
@[simp] theorem State.markAhead_studio (h : FramePart) : (s.markAhead h).studio = s.studio := rfl
@[simp] theorem State.markAhead_memo (h : FramePart) : (s.markAhead h).memo = s.memo := rfl
@[simp] theorem State.markAhead_freeCount (h : FramePart) : (s.markAhead h).freeCount = s.freeCount := rfl
@[simp] theorem State.markAhead_pending (h : FramePart) : (s.markAhead h).pending = s.pending := rfl
@[simp] theorem State.markAhead_port (h : FramePart) (l : Link) : (s.markAhead h).port l = s.port l := by cases l <;> rfl

/-! ### endOutgoing -/

@[simp] theorem State.endOutgoing_timing : (s.endOutgoing).timing = s.timing := rfl
@[simp] theorem State.endOutgoing_output : (s.endOutgoing).output = s.output := rfl
@[simp] theorem State.endOutgoing_store : (s.endOutgoing).store = s.store := rfl
@[simp] theorem State.endOutgoing_timelines : (s.endOutgoing).timelines = s.timelines := rfl
@[simp] theorem State.endOutgoing_blinks : (s.endOutgoing).blinks = s.blinks := rfl
@[simp] theorem State.endOutgoing_render : (s.endOutgoing).render = s.render := rfl
@[simp] theorem State.endOutgoing_chart : (s.endOutgoing).chart = s.chart := rfl
@[simp] theorem State.endOutgoing_fault : (s.endOutgoing).fault = s.fault := rfl
@[simp] theorem State.endOutgoing_forecast : (s.endOutgoing).forecast = s.forecast := rfl
@[simp] theorem State.endOutgoing_studio : (s.endOutgoing).studio = s.studio := rfl
@[simp] theorem State.endOutgoing_memo : (s.endOutgoing).memo = s.memo := rfl
@[simp] theorem State.endOutgoing_ahead : (s.endOutgoing).ahead = s.ahead := rfl
@[simp] theorem State.endOutgoing_freeCount : (s.endOutgoing).freeCount = s.freeCount := rfl
@[simp] theorem State.endOutgoing_pending : (s.endOutgoing).pending = s.pending := rfl
@[simp] theorem State.endOutgoing_port (l : Link) : (s.endOutgoing).port l = s.port l := by cases l <;> rfl

/-! ### setMemoSlot -/

@[simp] theorem State.setMemoSlot_timing (d : MemoDir) (v) : (s.setMemoSlot d v).timing = s.timing := by cases d <;> rfl
@[simp] theorem State.setMemoSlot_output (d : MemoDir) (v) : (s.setMemoSlot d v).output = s.output := by cases d <;> rfl
@[simp] theorem State.setMemoSlot_pages (d : MemoDir) (v) : (s.setMemoSlot d v).pages = s.pages := by cases d <;> rfl
@[simp] theorem State.setMemoSlot_store (d : MemoDir) (v) : (s.setMemoSlot d v).store = s.store := by cases d <;> rfl
@[simp] theorem State.setMemoSlot_timelines (d : MemoDir) (v) : (s.setMemoSlot d v).timelines = s.timelines := by cases d <;> rfl
@[simp] theorem State.setMemoSlot_blinks (d : MemoDir) (v) : (s.setMemoSlot d v).blinks = s.blinks := by cases d <;> rfl
@[simp] theorem State.setMemoSlot_render (d : MemoDir) (v) : (s.setMemoSlot d v).render = s.render := by cases d <;> rfl
@[simp] theorem State.setMemoSlot_chart (d : MemoDir) (v) : (s.setMemoSlot d v).chart = s.chart := by cases d <;> rfl
@[simp] theorem State.setMemoSlot_fault (d : MemoDir) (v) : (s.setMemoSlot d v).fault = s.fault := by cases d <;> rfl
@[simp] theorem State.setMemoSlot_forecast (d : MemoDir) (v) : (s.setMemoSlot d v).forecast = s.forecast := by cases d <;> rfl
@[simp] theorem State.setMemoSlot_studio (d : MemoDir) (v) : (s.setMemoSlot d v).studio = s.studio := by cases d <;> rfl
@[simp] theorem State.setMemoSlot_ahead (d : MemoDir) (v) : (s.setMemoSlot d v).ahead = s.ahead := by cases d <;> rfl
@[simp] theorem State.setMemoSlot_freeCount (d : MemoDir) (v) : (s.setMemoSlot d v).freeCount = s.freeCount := by cases d <;> rfl
@[simp] theorem State.setMemoSlot_pending (d : MemoDir) (v) : (s.setMemoSlot d v).pending = s.pending := by cases d <;> rfl
@[simp] theorem State.setMemoSlot_port (d : MemoDir) (v) (l : Link) : (s.setMemoSlot d v).port l = s.port l := by
  cases d <;> cases l <;> rfl
@[simp] theorem State.setMemoSlot_memoSlot (d : MemoDir) (v) : (s.setMemoSlot d v).memoSlot d = v := by cases d <;> rfl
theorem State.setMemoSlot_memoSlot_other {d e : MemoDir} (h : e ≠ d) (v) :
    (s.setMemoSlot d v).memoSlot e = s.memoSlot e := by
  cases d <;> cases e <;> first | rfl | exact absurd rfl h

end Sys2Proof.Machine
end

