-- ==== Sys2Proof/Laws/Memory.lean ====
section
/-! SUPPORT. The sparse memories: reading after a write, and the canonical form kept by every operation. -/

namespace Sys2Proof.Machine

variable {α : Type} [DecidableEq α] {d : α}

/-- The canonical form, said of the whole list. -/
theorem Mem.wf_iff (m : Mem α) :
    Mem.wf d m = true ↔ m.Pairwise (fun p q => p.1 < q.1) ∧ ∀ c ∈ m, c.2 ≠ d := by
  induction m with
  | nil => simp [Mem.wf]
  | cons p rest ih =>
    obtain ⟨a, x⟩ := p
    cases rest with
    | nil => simp [Mem.wf]
    | cons q rest =>
      obtain ⟨b, y⟩ := q
      simp only [Mem.wf, Bool.and_eq_true, decide_eq_true_eq, ih]
      constructor
      · rintro ⟨⟨hx, hab⟩, hp, hne⟩
        refine ⟨List.pairwise_cons.2 ⟨?_, hp⟩, ?_⟩
        · intro c hc
          rcases List.mem_cons.1 hc with rfl | hc
          · exact hab
          · exact Nat.lt_trans hab ((List.pairwise_cons.1 hp).1 c hc)
        · intro c hc
          rcases List.mem_cons.1 hc with rfl | hc
          · exact hx
          · exact hne c hc
      · rintro ⟨hp, hne⟩
        obtain ⟨h1, h2⟩ := List.pairwise_cons.1 hp
        exact ⟨⟨hne (a, x) (by simp), h1 (b, y) (by simp)⟩, h2, fun c hc => hne c (List.mem_cons_of_mem _ hc)⟩

theorem Mem.wf_nil : Mem.wf d ([] : Mem α) = true := rfl

/-- The addresses and values of a memory after a write come from the memory or are the pair written. -/
theorem Mem.mem_write {m : Mem α} {a : Nat} {v : α} {c : Nat × α} (h : c ∈ Mem.write d m a v) :
    c ∈ m ∨ (c = (a, v) ∧ v ≠ d) := by
  induction m with
  | nil =>
    simp only [Mem.write] at h
    split at h <;> simp_all
  | cons p rest ih =>
    obtain ⟨b, x⟩ := p
    simp only [Mem.write] at h
    split at h
    · split at h
      · exact Or.inl h
      · rcases List.mem_cons.1 h with h | h
        · exact Or.inr ⟨h, by assumption⟩
        · exact Or.inl h
    · split at h
      · split at h
        · exact Or.inl (List.mem_cons_of_mem _ h)
        · rcases List.mem_cons.1 h with h | h
          · exact Or.inr ⟨h, by assumption⟩
          · exact Or.inl (List.mem_cons_of_mem _ h)
      · rcases List.mem_cons.1 h with h | h
        · exact Or.inl (by simp [h])
        · rcases ih h with h | h
          · exact Or.inl (List.mem_cons_of_mem _ h)
          · exact Or.inr h

/-- A write keeps the canonical form. -/
theorem Mem.wf_write {m : Mem α} (h : Mem.wf d m = true) (a : Nat) (v : α) : Mem.wf d (Mem.write d m a v) = true := by
  rw [Mem.wf_iff] at h ⊢
  obtain ⟨hp, hn⟩ := h
  refine ⟨?_, ?_⟩
  · induction m with
    | nil => simp only [Mem.write]; split <;> simp
    | cons p rest ih =>
      obtain ⟨b, x⟩ := p
      obtain ⟨h1, h2⟩ := List.pairwise_cons.1 hp
      have hr := ih h2 (fun c hc => hn c (List.mem_cons_of_mem _ hc))
      simp only [Mem.write]
      split
      · rename_i hab
        split
        · exact hp
        · refine List.pairwise_cons.2 ⟨?_, hp⟩
          intro c hc
          rcases List.mem_cons.1 hc with rfl | hc
          · exact hab
          · exact Nat.lt_trans hab (h1 c hc)
      · split
        · rename_i hab
          subst hab
          split
          · exact h2
          · exact List.pairwise_cons.2 ⟨fun c hc => h1 c hc, h2⟩
        · rename_i hlt hne
          refine List.pairwise_cons.2 ⟨?_, hr⟩
          intro c hc
          rcases Mem.mem_write hc with hc | ⟨hc, _⟩
          · exact h1 c hc
          · subst hc
            show b < a
            omega
  · intro c hc
    rcases Mem.mem_write hc with hc | ⟨hc, hv⟩
    · exact hn c hc
    · subst hc; exact hv

/-- Writing a run of pairs keeps the canonical form. -/
theorem Mem.wf_writeAll {m : Mem α} (h : Mem.wf d m = true) (cells : List (Nat × α)) :
    Mem.wf d (Mem.writeAll d m cells) = true := by
  induction cells generalizing m with
  | nil => exact h
  | cons c rest ih => exact ih (Mem.wf_write h c.1 c.2)

/-- Clearing a range keeps the canonical form. -/
theorem Mem.wf_clearRange {m : Mem α} (h : Mem.wf d m = true) (start n : Nat) :
    Mem.wf d (Mem.clearRange m start n) = true := by
  rw [Mem.wf_iff] at h ⊢
  exact ⟨h.1.filter _, fun c hc => h.2 c (List.mem_filter.1 hc).1⟩

omit [DecidableEq α] in
/-- An address below every listed one reads as the default. -/
theorem Mem.read_of_lt {m : Mem α} {a : Nat} (h : ∀ c ∈ m, a < c.1) : Mem.read d m a = d := by
  induction m with
  | nil => rfl
  | cons p rest ih =>
    obtain ⟨b, x⟩ := p
    have hb : a < b := h (b, x) (by simp)
    simp only [Mem.read, Nat.ne_of_lt hb, if_false]
    exact ih fun c hc => h c (List.mem_cons_of_mem _ hc)

/-- A canonical memory reads, after a write, the value written at its address and what it read before elsewhere. -/
theorem Mem.read_write {m : Mem α} (h : Mem.wf d m = true) (a : Nat) (v : α) (b : Nat) :
    Mem.read d (Mem.write d m a v) b = if b = a then v else Mem.read d m b := by
  rw [Mem.wf_iff] at h
  obtain ⟨hp, -⟩ := h
  induction m with
  | nil =>
    simp only [Mem.write, Mem.read]
    split
    · simp_all [Mem.read]
    · simp [Mem.read]
  | cons p rest ih =>
    obtain ⟨c, x⟩ := p
    obtain ⟨h1, h2⟩ := List.pairwise_cons.1 hp
    simp only [Mem.write]
    split
    · rename_i hac
      split
      · rename_i hv
        by_cases hba : b = a
        · subst hba
          have : ∀ q ∈ ((c, x) :: rest : Mem α), b < q.1 := by
            intro q hq
            rcases List.mem_cons.1 hq with rfl | hq
            · exact hac
            · exact Nat.lt_trans hac (h1 q hq)
          rw [Mem.read_of_lt this]; simp [hv]
        · simp [hba]
      · by_cases hba : b = a <;> simp [Mem.read, hba]
    · split
      · rename_i hac
        subst hac
        split
        · rename_i hv
          by_cases hba : b = a
          · subst hba
            rw [Mem.read_of_lt (fun q hq => h1 q hq)]; simp [hv]
          · simp [Mem.read, hba]
        · by_cases hba : b = a <;> simp [Mem.read, hba]
      · rename_i hlt hne
        by_cases hbc : b = c
        · subst hbc
          have : b ≠ a := fun e => hne e.symm
          simp [Mem.read, this]
        · simp only [Mem.read, hbc, if_false]
          exact ih h2

/-- Reading after a run of writes at addresses other than `b`. -/
theorem Mem.read_writeAll_other {m : Mem α} (h : Mem.wf d m = true) (cells : List (Nat × α)) {b : Nat}
    (hb : ∀ c ∈ cells, c.1 ≠ b) : Mem.read d (Mem.writeAll d m cells) b = Mem.read d m b := by
  induction cells generalizing m with
  | nil => rfl
  | cons c rest ih =>
    have hc : b ≠ c.1 := fun e => hb c (by simp) e.symm
    show Mem.read d (Mem.writeAll d (Mem.write d m c.1 c.2) rest) b = _
    rw [ih (Mem.wf_write h _ _) fun q hq => hb q (List.mem_cons_of_mem _ hq), Mem.read_write h, if_neg hc]

omit [DecidableEq α] in
/-- Reading after a range is cleared. -/
theorem Mem.read_clearRange (m : Mem α) (start n b : Nat) :
    Mem.read d (Mem.clearRange m start n) b = if start ≤ b ∧ b < start + n then d else Mem.read d m b := by
  induction m with
  | nil => simp [Mem.clearRange, Mem.read]
  | cons p rest ih =>
    obtain ⟨c, x⟩ := p
    simp only [Mem.clearRange] at ih ⊢
    by_cases hc : start ≤ c ∧ c < start + n
    · rw [List.filter_cons_of_neg (by simp [hc.1, hc.2]), ih]
      by_cases hb : start ≤ b ∧ b < start + n
      · rw [if_pos hb, if_pos hb]
      · have : b ≠ c := fun e => hb (e ▸ hc)
        rw [if_neg hb, if_neg hb]; simp [Mem.read, this]
    · rw [List.filter_cons_of_pos (by simp only [Bool.not_eq_true', Bool.and_eq_false_iff, decide_eq_false_iff_not]; omega)]
      simp only [Mem.read]
      by_cases hbc : b = c
      · subst hbc
        rw [if_pos rfl, if_pos rfl, if_neg hc]
      · rw [if_neg hbc, if_neg hbc, ih]

/-- The flash keeps its canonical form under a write of bytes. -/
theorem flashWrite_wf {m : Mem Byte} (h : Mem.wf flashDefault m = true) (a : Nat) (bytes : List Byte) :
    Mem.wf flashDefault (flashWrite m a bytes) = true := Mem.wf_writeAll h _

/-- A byte outside the bytes written reads as before. -/
theorem flashWrite_read_other {m : Mem Byte} (h : Mem.wf flashDefault m = true) (a : Nat) (bytes : List Byte) {b : Nat}
    (hb : b < a ∨ a + bytes.length ≤ b) :
    Mem.read flashDefault (flashWrite m a bytes) b = Mem.read flashDefault m b := by
  refine Mem.read_writeAll_other h _ ?_
  intro c hc
  obtain ⟨i, hi, rfl⟩ := List.mem_map.1 hc
  have := List.mem_range.1 hi
  show a + i ≠ b
  omega

/-- A byte among the bytes written reads as the byte written. -/
theorem flashWrite_read_in {m : Mem Byte} (h : Mem.wf flashDefault m = true) (a : Nat) (bytes : List Byte) {i : Nat}
    (hi : i < bytes.length) :
    Mem.read flashDefault (flashWrite m a bytes) (a + i) = bytes.getD i 0 := by
  have key : ∀ (n : Nat) (m : Mem Byte), Mem.wf flashDefault m = true → i < n →
      Mem.read flashDefault (Mem.writeAll flashDefault m ((List.range n).map fun j => (a + j, bytes.getD j 0))) (a + i) =
        bytes.getD i 0 := by
    intro n
    induction n with
    | zero => intro m _ h; exact absurd h (Nat.not_lt_zero i)
    | succ n ih =>
      intro m hm hin
      rw [List.range_succ, List.map_append, Mem.writeAll, List.foldl_append]
      show Mem.read flashDefault (Mem.write flashDefault (Mem.writeAll flashDefault m _) (a + n) (bytes.getD n 0)) _ = _
      rw [Mem.read_write (Mem.wf_writeAll hm _)]
      by_cases h : i = n
      · subst h; simp
      · rw [if_neg (by omega), ih m hm (by omega)]
  exact key bytes.length m h hi

end Sys2Proof.Machine
end

