-- ==== Sys2Proof/Laws/Ports.lean ====
section
/-! SUPPORT. The clock and the link ports: what an arriving packet, a reply and a notice change, when a packet is taken, busy or
refused, and the bound of the transmit queue. -/

namespace Sys2Proof.Machine

/-! ### The clock -/

section Clock

variable (s : State) (t : Nat)

@[simp] theorem State.advanceTo_timing : (s.advanceTo t).timing = { s.timing with now := max s.timing.now t } := by
  unfold State.advanceTo; dsimp only; split
  · rfl
  · split <;> rfl

/-- The clock moves the key enable alone among the output's items. -/
theorem State.advanceTo_output :
    (s.advanceTo t).output =
      { s.output with keyEnable := (s.advanceTo t).output.keyEnable, keyDropAt := (s.advanceTo t).output.keyDropAt } := by
  unfold State.advanceTo; dsimp only; split
  · rfl
  · split <;> rfl

@[simp] theorem State.advanceTo_pages : (s.advanceTo t).pages = s.pages := by
  unfold State.advanceTo; dsimp only; split
  · rfl
  · split <;> rfl
@[simp] theorem State.advanceTo_store : (s.advanceTo t).store = s.store := by
  unfold State.advanceTo; dsimp only; split
  · rfl
  · split <;> rfl
@[simp] theorem State.advanceTo_timelines : (s.advanceTo t).timelines = s.timelines := by
  unfold State.advanceTo; dsimp only; split
  · rfl
  · split <;> rfl
@[simp] theorem State.advanceTo_blinks : (s.advanceTo t).blinks = s.blinks := by
  unfold State.advanceTo; dsimp only; split
  · rfl
  · split <;> rfl
@[simp] theorem State.advanceTo_render : (s.advanceTo t).render = s.render := by
  unfold State.advanceTo; dsimp only; split
  · rfl
  · split <;> rfl
@[simp] theorem State.advanceTo_chart : (s.advanceTo t).chart = s.chart := by
  unfold State.advanceTo; dsimp only; split
  · rfl
  · split <;> rfl
@[simp] theorem State.advanceTo_fault : (s.advanceTo t).fault = s.fault := by
  unfold State.advanceTo; dsimp only; split
  · rfl
  · split <;> rfl
@[simp] theorem State.advanceTo_forecast : (s.advanceTo t).forecast = s.forecast := by
  unfold State.advanceTo; dsimp only; split
  · rfl
  · split <;> rfl
@[simp] theorem State.advanceTo_studio : (s.advanceTo t).studio = s.studio := by
  unfold State.advanceTo; dsimp only; split
  · rfl
  · split <;> rfl
@[simp] theorem State.advanceTo_memo : (s.advanceTo t).memo = s.memo := by
  unfold State.advanceTo; dsimp only; split
  · rfl
  · split <;> rfl
@[simp] theorem State.advanceTo_ahead : (s.advanceTo t).ahead = s.ahead := by
  unfold State.advanceTo; dsimp only; split
  · rfl
  · split <;> rfl
@[simp] theorem State.advanceTo_freeCount : (s.advanceTo t).freeCount = s.freeCount := by
  unfold State.advanceTo; dsimp only; split
  · rfl
  · split <;> rfl
@[simp] theorem State.advanceTo_pending : (s.advanceTo t).pending = s.pending := by
  unfold State.advanceTo; dsimp only; split
  · rfl
  · split <;> rfl
@[simp] theorem State.advanceTo_output_state : (s.advanceTo t).output.state = s.output.state := by
  rw [State.advanceTo_output]
@[simp] theorem State.advanceTo_output_acc : (s.advanceTo t).output.acc = s.output.acc := by
  rw [State.advanceTo_output]
@[simp] theorem State.advanceTo_output_slope : (s.advanceTo t).output.slope = s.output.slope := by
  rw [State.advanceTo_output]
@[simp] theorem State.advanceTo_output_cut : (s.advanceTo t).output.cut = s.output.cut := by
  rw [State.advanceTo_output]
@[simp] theorem State.advanceTo_output_palette : (s.advanceTo t).output.palette = s.output.palette := by
  rw [State.advanceTo_output]
@[simp] theorem State.advanceTo_output_staged : (s.advanceTo t).output.staged = s.output.staged := by
  rw [State.advanceTo_output]
/-- The clock clears the key enable on reaching the line start for which a clearing waits, and not before (R28). -/
theorem State.advanceTo_output_eq :
    (s.advanceTo t).output =
      match s.output.keyDropAt with
      | none => s.output
      | some d =>
        if d ≤ max s.timing.now t then { s.output with keyEnable := false, keyDropAt := none } else s.output := by
  unfold State.advanceTo
  dsimp only [State.setTiming_output]
  cases s.output.keyDropAt with
  | none => rfl
  | some d => dsimp only; split <;> rfl

/-- A frame start clears the key enable where a clearing waits (R28). -/
theorem State.clearKeyAtFrame_output :
    s.clearKeyAtFrame.output =
      match s.output.keyDropAt with
      | none => s.output
      | some _ => { s.output with keyEnable := false, keyDropAt := none } := by
  unfold State.clearKeyAtFrame
  cases s.output.keyDropAt <;> rfl

/-- A page of the front buffer that is neither LOADED nor OUTGOING any more: the key enable stands until the next line start (R28). -/
theorem State.dropKey_output :
    s.dropKey.output =
      if s.output.keyEnable = true ∧ s.frontKeyed = false ∧ s.output.keyDropAt = none then
        { s.output with keyDropAt := some s.timing.lineAfter }
      else s.output := by
  unfold State.dropKey
  cases he : s.output.keyEnable <;> cases hk : s.frontKeyed <;> cases hd : s.output.keyDropAt <;> simp

/-- The next line start of the raster in progress lies after the present instant, by one line at most, on a multiple of the line width
(R4, R25, R28). -/
theorem Timing.lineAfter_bounds {t : Timing} (h : t.began ≤ t.now) :
    t.now < t.lineAfter ∧ t.lineAfter ≤ t.now + t.rate.width ∧ (t.lineAfter - t.began) % t.rate.width = 0 := by
  have hw : 0 < t.rate.width := by cases t.rate <;> decide
  have hd := Nat.div_add_mod (t.now - t.began) t.rate.width
  have hm := Nat.mod_lt (t.now - t.began) hw
  have hp : t.lineAfter = t.began + (t.rate.width * ((t.now - t.began) / t.rate.width) + t.rate.width) := by
    rw [Timing.lineAfter, Nat.add_mul, Nat.one_mul, Nat.mul_comm]
  refine ⟨by omega, by omega, ?_⟩
  rw [hp, Nat.add_sub_cancel_left, Nat.add_mod_right, Nat.mul_mod_right]

@[simp] theorem State.clearKeyAtFrame_timing : s.clearKeyAtFrame.timing = s.timing := by
  unfold State.clearKeyAtFrame; split <;> rfl
@[simp] theorem State.clearKeyAtFrame_ahead : s.clearKeyAtFrame.ahead = s.ahead := by
  unfold State.clearKeyAtFrame; split <;> rfl
@[simp] theorem State.advanceTo_port (l : Link) : (s.advanceTo t).port l = s.port l := by
  cases l
  · exact State.advanceTo_forecast s t
  · exact State.advanceTo_studio s t

end Clock

/-! ### An arriving packet -/

section Arrive

variable (s : State) (p : Packet) (k : Kind)

@[simp] theorem State.arrive_pages : (s.arrive p).pages = s.pages := by simp [State.arrive]
@[simp] theorem State.taken_pages : (s.taken k p).pages = s.pages := by simp [State.taken]
@[simp] theorem State.arrive_store : (s.arrive p).store = s.store := by simp [State.arrive]
@[simp] theorem State.taken_store : (s.taken k p).store = s.store := by simp [State.taken]
@[simp] theorem State.arrive_timelines : (s.arrive p).timelines = s.timelines := by simp [State.arrive]
@[simp] theorem State.taken_timelines : (s.taken k p).timelines = s.timelines := by simp [State.taken]
@[simp] theorem State.arrive_blinks : (s.arrive p).blinks = s.blinks := by simp [State.arrive]
@[simp] theorem State.taken_blinks : (s.taken k p).blinks = s.blinks := by simp [State.taken]
@[simp] theorem State.arrive_render : (s.arrive p).render = s.render := by simp [State.arrive]
@[simp] theorem State.taken_render : (s.taken k p).render = s.render := by simp [State.taken]
@[simp] theorem State.arrive_chart : (s.arrive p).chart = s.chart := by simp [State.arrive]
@[simp] theorem State.taken_chart : (s.taken k p).chart = s.chart := by simp [State.taken]
@[simp] theorem State.arrive_fault : (s.arrive p).fault = s.fault := by simp [State.arrive]
@[simp] theorem State.taken_fault : (s.taken k p).fault = s.fault := by simp [State.taken]
@[simp] theorem State.arrive_memo : (s.arrive p).memo = s.memo := by simp [State.arrive]
@[simp] theorem State.taken_memo : (s.taken k p).memo = s.memo := by simp [State.taken]
@[simp] theorem State.arrive_ahead : (s.arrive p).ahead = s.ahead := by simp [State.arrive]
@[simp] theorem State.taken_ahead : (s.taken k p).ahead = s.ahead := by simp [State.taken]
@[simp] theorem State.arrive_freeCount : (s.arrive p).freeCount = s.freeCount := by simp [State.arrive]
@[simp] theorem State.taken_freeCount : (s.taken k p).freeCount = s.freeCount := by simp [State.taken]
@[simp] theorem State.arrive_pending : (s.arrive p).pending = s.pending := by simp [State.arrive]
@[simp] theorem State.taken_pending : (s.taken k p).pending = s.pending := by simp [State.taken]
@[simp] theorem State.arrive_output_state : (s.arrive p).output.state = s.output.state := by simp [State.arrive]
@[simp] theorem State.taken_output_state : (s.taken k p).output.state = s.output.state := by simp [State.taken]
@[simp] theorem State.arrive_output_acc : (s.arrive p).output.acc = s.output.acc := by simp [State.arrive]
@[simp] theorem State.taken_output_acc : (s.taken k p).output.acc = s.output.acc := by simp [State.taken]
@[simp] theorem State.arrive_output_slope : (s.arrive p).output.slope = s.output.slope := by simp [State.arrive]
@[simp] theorem State.taken_output_slope : (s.taken k p).output.slope = s.output.slope := by simp [State.taken]
@[simp] theorem State.arrive_output_cut : (s.arrive p).output.cut = s.output.cut := by simp [State.arrive]
@[simp] theorem State.taken_output_cut : (s.taken k p).output.cut = s.output.cut := by simp [State.taken]
@[simp] theorem State.arrive_output_palette : (s.arrive p).output.palette = s.output.palette := by simp [State.arrive]
@[simp] theorem State.taken_output_palette : (s.taken k p).output.palette = s.output.palette := by simp [State.taken]
@[simp] theorem State.arrive_output_staged : (s.arrive p).output.staged = s.output.staged := by simp [State.arrive]
@[simp] theorem State.taken_output_staged : (s.taken k p).output.staged = s.output.staged := by simp [State.taken]
@[simp] theorem State.arrive_timing : (s.arrive p).timing = { s.timing with now := max s.timing.now p.time } := by
  simp [State.arrive]
@[simp] theorem State.taken_timing : (s.taken k p).timing = { s.timing with now := max s.timing.now p.time } := by
  simp [State.taken]
@[simp] theorem State.arrive_port : (s.arrive p).port p.link = Port.hunt (s.port p.link) := by simp [State.arrive]
theorem State.arrive_port_other {m : Link} (h : m ≠ p.link) : (s.arrive p).port m = s.port m := by
  simp [State.arrive, State.mapPort_port_other _ h]
@[simp] theorem State.taken_port :
    (s.taken k p).port p.link = Port.take (cmdRecord k p) (Port.hunt (s.port p.link)) := by simp [State.taken]
theorem State.taken_port_other {m : Link} (h : m ≠ p.link) : (s.taken k p).port m = s.port m := by
  simp [State.taken, State.mapPort_port_other _ h, State.arrive_port_other s p h]

end Arrive

/-! ### Command handling -/

/-- A packet that is taken goes to its owner (R162). -/
theorem serve_taken {k : Kind} {p : Packet} {s : State} (own : Packet → State → State) (h : takes k p s = true) :
    serve k p own s = own p (s.taken k p) := by
  simp only [takes, Bool.and_eq_true, Option.isNone_iff_eq_none] at h
  obtain ⟨⟨h1, h2⟩, h3⟩ := h
  simp [serve, h1, h2, h3]

/-- A packet that meets a busy slot is answered BUSY (R164). -/
theorem serve_busy {k : Kind} {p : Packet} {s : State} (own : Packet → State → State)
    (hh : (s.port p.link).completes k.code p = true) (hs : (s.port p.link).slot.isSome = true) :
    serve k p own s = (s.arrive p).refuse k.code p .busy := by
  simp [serve, hh, hs]

/-- A packet that a check of the port refuses is answered with that status (R162). -/
theorem serve_refused {k : Kind} {p : Packet} {s : State} {st : Status} (own : Packet → State → State)
    (hh : (s.port p.link).completes k.code p = true) (hs : (s.port p.link).slot = none) (hr : portRefusal k p s = some st) :
    serve k p own s = (s.arrive p).refuse k.code p st := by
  simp [serve, hh, hs, hr]

/-- A packet that is not complete changes nothing (R159). -/
theorem serve_incomplete {k : Kind} {p : Packet} {s : State} (own : Packet → State → State)
    (hh : (s.port p.link).completes k.code p = false) : serve k p own s = s := by
  simp [serve, hh]

/-- A receiver that hunts and holds nothing completes any packet of a permitted length (R159). -/
theorem Port.completes_hunting {r : Port} (code : BitVec 7) (p : Packet) (hh : r.held = false) (hx : r.rx = .hunting)
    (hp : r.packet = none) (hl : p.payload.length ≤ 1024) : r.completes code p = true := by
  have ht : (packetHeader code p).length.toNat = p.payload.length := by
    simp only [packetHeader, BitVec.toNat_ofNat]; omega
  have hz : (packetHeader code p).length = 0 ↔ p.payload = [] := by
    rw [← BitVec.toNat_inj, ht]; simp
  simp only [Port.completes, Port.collect, hh, hx, hp, RxPacket.complete, headerBytes, packetBody, ht]
  by_cases he : p.payload = []
  · simp [he, hz.2 he]
  · have hne : ¬(packetHeader code p).length = 0#11 := mt hz.1 he
    simp [he, bytes2, hl, if_neg hne]; omega

/-- Whatever holds of the state after each of the four outcomes holds after command handling. -/
theorem serve_cases {P : State → Prop} {k : Kind} {p : Packet} {s : State} {own : Packet → State → State}
    (incomplete : P s) (refused : ∀ st, P ((s.arrive p).refuse k.code p st)) (taken : P (own p (s.taken k p))) :
    P (serve k p own s) := by
  unfold serve
  split
  · split
    · exact refused _
    · split
      · exact refused _
      · exact taken
  · exact incomplete

/-! ### Replies and notices -/

/-- The owner has finished: the slot is free (R162). -/
@[simp] theorem Port.finish_slot (st : Status) (r : List Byte) (p : Port) : (Port.finish st r p).slot = none := by
  unfold Port.finish
  split
  · assumption
  · split <;> rfl

/-- The reply of a command that is not suppressed is that of R165, with the slot then free. -/
theorem Port.finish_reply {p : Port} {c : CmdRecord} (st : Status) (r : List Byte) (hs : p.slot = some c)
    (hm : p.suppressed = false) :
    Port.finish st r p = { Port.reply c.kind.code c.tag c.arg st r p with slot := none } := by
  simp [Port.finish, hs, hm]

/-- A suppressed reply is not queued (R170). -/
theorem Port.finish_suppressed {p : Port} {c : CmdRecord} (st : Status) (r : List Byte) (hs : p.slot = some c)
    (hm : p.suppressed = true) : Port.finish st r p = { p with slot := none, suppressed := false } := by
  simp [Port.finish, hs, hm]

/-- While a packet is in transmission the transmitter takes none (R167). -/
theorem Port.pump_of_tx {p : Port} {x : TxPacket} (h : p.tx = some x) : Port.pump p = p := by
  unfold Port.pump
  split
  · rfl
  · simp [h]

/-- While the receive line stays at space the transmitter takes none (R170). -/
theorem Port.pump_of_held {p : Port} (h : p.held = true) : Port.pump p = p := by simp [Port.pump, h]

@[simp] theorem Port.pump_slot (p : Port) : (Port.pump p).slot = p.slot := by
  unfold Port.pump; split
  · rfl
  · split
    · rfl
    · split <;> rfl

@[simp] theorem Port.pump_summary (p : Port) : (Port.pump p).summary = p.summary := by
  unfold Port.pump; split
  · rfl
  · split
    · rfl
    · split <;> rfl

/-- The packet taken and the queue left hold together what the queue held, one fewer (R167). -/
theorem takeNext_length {q : List TxPacket} {x : TxPacket} {rest : List TxPacket} (h : takeNext q = some (x, rest)) :
    rest.length < q.length := by
  unfold takeNext at h
  split at h
  · rename_i y hy
    have hmem : y ∈ q := List.mem_of_find?_eq_some hy
    have hp := List.find?_some hy
    simp only [Option.some.injEq, Prod.mk.injEq] at h
    rw [← h.2, List.length_eraseP_of_mem hmem hp]
    have := List.length_pos_of_mem hmem
    omega
  · split at h
    · cases h
    · simp only [Option.some.injEq, Prod.mk.injEq] at h
      rw [← h.2]; simp

/-- The transmit queue is within its limit (R167). -/
def Port.bounded (p : Port) : Prop := p.queue.length ≤ queueLimit

theorem Port.bounded_pump {p : Port} (h : p.bounded) : (Port.pump p).bounded := by
  unfold Port.pump
  split
  · exact h
  · split
    · exact h
    · split
      · exact h
      · rename_i hx
        have := takeNext_length hx
        simp only [Port.bounded] at h ⊢
        omega

theorem Port.bounded_notify {p : Port} (n : TxPacket) (h : p.bounded) : (Port.notify n p).bounded := by
  unfold Port.notify
  split
  · exact Port.bounded_pump (by simp only [Port.bounded, queueLimit, List.length_append, List.length_singleton] at *; omega)
  · exact h

theorem dropNewestNotice_length {q rest : List TxPacket} (h : dropNewestNotice q = some rest) :
    rest.length < q.length := by
  unfold dropNewestNotice at h
  split at h
  · rename_i hq
    obtain ⟨x, hx, hn⟩ := List.any_eq_true.1 hq
    simp only [Option.some.injEq] at h
    rw [← h, List.length_reverse, List.length_eraseP_of_mem (List.mem_reverse.2 hx) hn, List.length_reverse]
    have := List.length_pos_of_mem hx
    omega
  · cases h

theorem Port.bounded_reply {p : Port} (kind : BitVec 7) (tag : BitVec 3) (arg : BitVec 4) (st : Status) (r : List Byte)
    (h : p.bounded) : (Port.reply kind tag arg st r p).bounded := by
  unfold Port.reply
  split
  · exact Port.bounded_pump (by simp only [Port.bounded, queueLimit, List.length_append, List.length_singleton] at *; omega)
  · split
    · rename_i hx
      have := dropNewestNotice_length hx
      exact Port.bounded_pump (by
        simp only [Port.bounded, queueLimit, List.length_append, List.length_singleton] at *; omega)
    · exact h

theorem Port.bounded_finish {p : Port} (st : Status) (r : List Byte) (h : p.bounded) : (Port.finish st r p).bounded := by
  unfold Port.finish
  split
  · exact h
  · split
    · exact h
    · exact Port.bounded_reply _ _ _ _ _ h

/-- Both transmit queues are within their limit. -/
def State.portsBounded (s : State) : Prop := ∀ l, (s.port l).bounded

theorem State.portsBounded_mapPort {s : State} (h : s.portsBounded) (l : Link) {g : Port → Port}
    (hg : ∀ p : Port, p.bounded → (g p).bounded) : (s.mapPort l g).portsBounded := by
  intro m
  by_cases hm : m = l
  · subst hm; rw [State.mapPort_port]; exact hg _ (h m)
  · rw [State.mapPort_port_other s hm]; exact h m

theorem State.portsBounded_notify {s : State} (h : s.portsBounded) (l : Link) (n : Notice) :
    (s.notify l n).portsBounded := State.portsBounded_mapPort h l fun _ => Port.bounded_notify _

theorem State.portsBounded_finish {s : State} (h : s.portsBounded) (l : Link) (st : Status) (r : List Byte) :
    (s.finish l st r).portsBounded := State.portsBounded_mapPort h l fun _ => Port.bounded_finish _ _

/-- A change that leaves both ports leaves the bound. -/
theorem State.portsBounded_of_port_eq {s t : State} (h : s.portsBounded) (e : ∀ l, t.port l = s.port l) :
    t.portsBounded := fun l => e l ▸ h l

end Sys2Proof.Machine
end

