-- ==== Sys2Proof/Laws/Frames.lean ====
section
/-! SUPPORT. Which blocks each shared operation may change: one frame lemma per operation, and how frames compose. -/

namespace Sys2Proof.Machine

/-- Every block outside the list is as it was. -/
def Frame (bs : List Block) (s t : State) : Prop := ∀ b, b ∉ bs → agree b s t

theorem agree_refl (b : Block) (s : State) : agree b s s := by cases b <;> simp [agree]

theorem agree_trans {b : Block} {s t u : State} (h : agree b s t) (g : agree b t u) : agree b s u := by
  cases b <;> simp only [agree] at *
  all_goals first
    | exact g.trans h
    | exact ⟨g.1.trans h.1, g.2.trans h.2⟩
    | (rw [g, h])

theorem Frame.refl (bs : List Block) (s : State) : Frame bs s s := fun b _ => agree_refl b s

theorem Frame.trans {bs : List Block} {s t u : State} (h : Frame bs s t) (g : Frame bs t u) : Frame bs s u :=
  fun b hb => agree_trans (h b hb) (g b hb)

theorem Frame.mono {bs cs : List Block} {s t : State} (h : Frame bs s t) (hs : ∀ b ∈ bs, b ∈ cs) : Frame cs s t :=
  fun b hb => h b fun m => hb (hs b m)

/-! ### Reading one field off a frame -/

section Fields

variable {bs : List Block} {s t : State}

theorem Frame.timing_eq (h : Frame bs s t) (hc : Block.clock ∉ bs) (ht : Block.timing ∉ bs) : t.timing = s.timing := by
  have h1 : t.timing.now = s.timing.now := h .clock hc
  have h2 : t.timing = { s.timing with now := t.timing.now } := h .timing ht
  rw [h2, h1]
theorem Frame.output_eq (h : Frame bs s t) (hk : Block.keyEnable ∉ bs) (ho : Block.output ∉ bs) :
    t.output = s.output := by
  have h1 : t.output.keyEnable = s.output.keyEnable ∧ t.output.keyDropAt = s.output.keyDropAt := h .keyEnable hk
  have h2 : t.output = { s.output with keyEnable := t.output.keyEnable, keyDropAt := t.output.keyDropAt } := h .output ho
  rw [h2, h1.1, h1.2]
theorem Frame.pages_eq (h : Frame bs s t) (hb : Block.pages ∉ bs) : t.pages = s.pages := h .pages hb
theorem Frame.store_eq (h : Frame bs s t) (hb : Block.store ∉ bs) : t.store = s.store := h .store hb
theorem Frame.timelines_eq (h : Frame bs s t) (hb : Block.timelines ∉ bs) : t.timelines = s.timelines := h .timelines hb
theorem Frame.blinks_eq (h : Frame bs s t) (hb : Block.blinks ∉ bs) : t.blinks = s.blinks := h .blinks hb
theorem Frame.render_eq (h : Frame bs s t) (hb : Block.render ∉ bs) : t.render = s.render := h .render hb
theorem Frame.chart_eq (h : Frame bs s t) (hb : Block.chart ∉ bs) : t.chart = s.chart := h .chart hb
theorem Frame.fault_eq (h : Frame bs s t) (hb : Block.fault ∉ bs) : t.fault = s.fault := h .fault hb
theorem Frame.memo_eq (h : Frame bs s t) (hb : Block.memo ∉ bs) : t.memo = s.memo := h .memo hb
theorem Frame.ahead_eq (h : Frame bs s t) (hb : Block.ahead ∉ bs) : t.ahead = s.ahead := h .ahead hb
theorem Frame.freeCount_eq (h : Frame bs s t) (hb : Block.freeCount ∉ bs) : t.freeCount = s.freeCount := h .freeCount hb
theorem Frame.pending_eq (h : Frame bs s t) (hb : Block.queue ∉ bs) : t.pending = s.pending := h .queue hb
theorem Frame.port_eq (h : Frame bs s t) (l : Link) (hb : Block.port l ∉ bs) : t.port l = s.port l := h (.port l) hb

end Fields

/-! ### One write of each block -/

section Writes

variable (s : State)

theorem frame_setTiming (v : Timing) : Frame [.clock, .timing] s (s.setTiming v) := by
  intro b hb; cases b <;> simp_all [agree]
theorem frame_setOutput (v : OutputStage) : Frame [.keyEnable, .output] s (s.setOutput v) := by
  intro b hb; cases b <;> simp_all [agree]
theorem frame_setPages (v : PageTable) : Frame [.pages] s (s.setPages v) := by
  intro b hb; cases b <;> simp_all [agree]
theorem frame_setStore (v : FieldStore) : Frame [.store] s (s.setStore v) := by
  intro b hb; cases b <;> simp_all [agree]
theorem frame_setTimelines (v : Vector Timeline 4) : Frame [.timelines] s (s.setTimelines v) := by
  intro b hb; cases b <;> simp_all [agree]
theorem frame_setBlinks (v : Vector Blink 4) : Frame [.blinks] s (s.setBlinks v) := by
  intro b hb; cases b <;> simp_all [agree]
theorem frame_setRender (v : Render) : Frame [.render] s (s.setRender v) := by
  intro b hb; cases b <;> simp_all [agree]
theorem frame_setChart (v : Chart) : Frame [.chart] s (s.setChart v) := by
  intro b hb; cases b <;> simp_all [agree]
theorem frame_setFault (v : FaultUnit) : Frame [.fault] s (s.setFault v) := by
  intro b hb; cases b <;> simp_all [agree]
theorem frame_setAhead (v : List FramePart) : Frame [.ahead] s (s.setAhead v) := by
  intro b hb; cases b <;> simp_all [agree]
theorem frame_setMemoSlot (d : MemoDir) (v : Option Memo) : Frame [.memo] s (s.setMemoSlot d v) := by
  intro b hb; cases b <;> simp_all [agree]
theorem frame_setTimeline (n : Fin 4) (v : Timeline) : Frame [.timelines] s (s.setTimeline n v) := by
  intro b hb; cases b <;> simp_all [agree]
theorem frame_setBlink (n : Fin 4) (v : Blink) : Frame [.blinks] s (s.setBlink n v) := by
  intro b hb; cases b <;> simp_all [agree]
theorem frame_setFieldSet (n : Fin 4) (v : FieldSet) : Frame [.store] s (s.setFieldSet n v) := by
  intro b hb; cases b <;> simp_all [agree]
theorem frame_setJob (j : Option Job) : Frame [.render] s (s.setJob j) := by
  intro b hb; cases b <;> simp_all [agree]
theorem frame_markAhead (h : FramePart) : Frame [.ahead] s (s.markAhead h) := by
  intro b hb; cases b <;> simp_all [agree]
theorem frame_endOutgoing : Frame [.pages] s s.endOutgoing := by
  intro b hb; cases b <;> simp_all [agree]

theorem frame_mapPort (l : Link) (g : Port → Port) : Frame [.port l] s (s.mapPort l g) := by
  intro b hb; cases b <;> simp_all [agree]
  rename_i m
  exact State.mapPort_port_other s hb g
theorem frame_notify (l : Link) (n : Notice) : Frame [.port l] s (s.notify l n) := frame_mapPort s l _
theorem frame_finish (l : Link) (st : Status) (r : List Byte) : Frame [.port l] s (s.finish l st r) := frame_mapPort s l _
theorem frame_refuse (code : BitVec 7) (p : Packet) (st : Status) : Frame [.port p.link] s (s.refuse code p st) :=
  frame_mapPort s p.link _

theorem frame_notifyAll (l : Link) (ns : List Notice) : Frame [.port l] s (s.notifyAll l ns) := by
  induction ns generalizing s with
  | nil => exact Frame.refl _ _
  | cons x rest ih => exact (frame_mapPort s l _).trans (ih _)

end Writes

/-! ### The clock and arriving packets -/

theorem frame_advanceTo (s : State) (t : Nat) : Frame [.clock, .keyEnable] s (s.advanceTo t) := by
  intro b hb
  cases b <;> simp_all [agree]
  exact State.advanceTo_output s t

theorem frame_arrive (s : State) (p : Packet) : Frame (packetBlocks p) s (s.arrive p) :=
  ((frame_advanceTo s p.time).mono (by simp [packetBlocks])).trans
    ((frame_mapPort _ p.link _).mono (by simp [packetBlocks]))

theorem frame_taken (k : Kind) (s : State) (p : Packet) : Frame (packetBlocks p) s (s.taken k p) :=
  (frame_arrive s p).trans ((frame_mapPort _ p.link _).mono (by simp [packetBlocks]))

theorem frame_clearKey (s : State) : Frame [.keyEnable] s s.clearKey := by
  intro b hb; cases b <;> simp_all [agree, State.clearKey]

theorem frame_clearKeyAtFrame (s : State) : Frame [.keyEnable] s s.clearKeyAtFrame := by
  unfold State.clearKeyAtFrame
  split
  · exact Frame.refl _ _
  · exact frame_clearKey s

/-- Entering a frame start is the timing generator's own step, with the key enable's drop where one waits, and nothing else (R5). -/
theorem frame_enterFrame (s : State) : Frame [.clock, .keyEnable, .timing, .ahead] s s.enterFrame := by
  unfold State.enterFrame
  split
  · exact Frame.refl _ _
  · exact ((((frame_advanceTo s _).mono (by simp)).trans ((frame_setTiming _ _).mono (by simp))).trans
      ((frame_clearKeyAtFrame _).mono (by simp))).trans ((frame_markAhead _ _).mono (by simp))

theorem frame_reachPanic (s : State) : Frame [.clock, .keyEnable, .timing, .ahead] s s.reachPanic := by
  unfold State.reachPanic
  split
  · exact (frame_enterFrame s).trans ((frame_advanceTo _ _).mono (by simp))
  · exact (frame_advanceTo s _).mono (by simp)

/-- Command handling changes the packet's own blocks and those that the owner changes. -/
theorem frame_serve {bs : List Block} {k : Kind} {p : Packet} {s : State} {own : Packet → State → State}
    (hp : ∀ b ∈ packetBlocks p, b ∈ bs) (h : ∀ t, Frame bs t (own p t)) : Frame bs s (serve k p own s) := by
  refine serve_cases (P := fun t => Frame bs s t) (Frame.refl _ _) (fun st => ?_) ?_
  · exact ((frame_arrive s p).mono hp).trans ((frame_refuse _ _ p st).mono fun b hb => hp b (by simp_all [packetBlocks]))
  · exact ((frame_taken k s p).mono hp).trans (h _)

/-! ### Operations over several blocks -/

theorem frame_notifyReference (s : State) (before : RefState) :
    Frame [.port .forecast, .port .studio] s (s.notifyReference before) := by
  unfold State.notifyReference
  split
  · exact Frame.refl _ _
  · exact ((frame_notify s _ _).mono (by simp)).trans ((frame_notify _ _ _).mono (by simp))

theorem frame_notifyOutput (s : State) (before : OutputState) : Frame [.port .studio] s (s.notifyOutput before) := by
  unfold State.notifyOutput
  split
  · exact Frame.refl _ _
  · exact frame_notify s _ _

/-- The key enable's drop waits for a line start, and nothing else of the output changes (R28). -/
theorem frame_dropKey (s : State) : Frame [.keyEnable] s s.dropKey := by
  unfold State.dropKey
  split
  · split
    · exact Frame.refl _ _
    · intro b hb; cases b <;> simp_all [agree]
  · exact Frame.refl _ _

theorem frame_enterDark (s : State) : Frame [.keyEnable, .output, .pages] s s.enterDark := by
  unfold State.enterDark
  exact (((frame_setOutput s _).mono (by simp)).trans ((frame_endOutgoing _).mono (by simp))).trans
    ((frame_dropKey _).mono (by simp))

theorem frame_outputFrame (s : State) : Frame [.keyEnable, .output, .pages] s s.outputFrame := by
  unfold State.outputFrame
  dsimp only
  split
  · exact (((frame_setOutput s _).mono (by simp)).trans ((frame_endOutgoing _).mono (by simp))).trans
      ((frame_dropKey _).mono (by simp))
  · exact (frame_setOutput s _).mono (by simp)

theorem frame_handleTimeline (s : State) (t : Fin 4) :
    Frame [.timelines, .port .studio, .ahead] s (s.handleTimeline t) := by
  unfold State.handleTimeline
  exact (((frame_setTimeline s _ _).mono (by simp)).trans ((frame_markAhead _ _).mono (by simp))).trans
    ((frame_notifyAll _ _ _).mono (by simp))

theorem frame_timelineAhead (s : State) (t : Fin 4) :
    Frame [.timelines, .port .studio, .ahead] s (s.timelineAhead t) := by
  unfold State.timelineAhead
  split
  · exact Frame.refl _ _
  · exact frame_handleTimeline s t

/-- Timelines that handle a frame start ahead of the rest change themselves, their marks and the studio port (R75, R77, log 6). -/
theorem frame_timelinesAhead (s : State) (ts : List (Fin 4)) :
    Frame [.timelines, .port .studio, .ahead] s (ts.foldl State.timelineAhead s) := by
  induction ts generalizing s with
  | nil => exact Frame.refl _ _
  | cons t rest ih => exact (frame_timelineAhead s t).trans (ih _)

/-- A report changes the cache, where it enters BYPASS, the fault unit and the forecast port (R149, R150, R152). -/
theorem frame_report (s : State) (k : FaultKind) (tile : Option Nat) :
    Frame [.chart, .fault, .port .forecast] s (s.report k tile) := by
  unfold State.report
  dsimp only
  split
  · exact (((frame_setFault s _).mono (by simp)).trans ((frame_setChart _ _).mono (by simp))).trans
      ((frame_notify _ _ _).mono (by simp))
  · exact ((frame_setFault s _).mono (by simp)).trans ((frame_notify _ _ _).mono (by simp))

theorem frame_setStoreState (s : State) (st : StoreState) :
    Frame [.chart, .port .forecast] s (s.setStoreState st) := by
  unfold State.setStoreState
  split
  · exact Frame.refl _ _
  · exact ((frame_setChart s _).mono (by simp)).trans ((frame_notify _ _ _).mono (by simp))

theorem frame_applyDeferred (s : State) : Frame [.store, .render, .port .forecast] s s.applyDeferred := by
  unfold State.applyDeferred
  split
  · exact Frame.refl _ _
  · exact (((frame_setStore s _).mono (by simp)).trans ((frame_setRender _ _).mono (by simp))).trans
      ((frame_finish _ _ _ _).mono (by simp))

theorem frame_deferWrite (s : State) (w : DeferredWrite) :
    Frame [.store, .render, .port .forecast] s (s.deferWrite w) := by
  unfold State.deferWrite
  dsimp only
  split
  · exact ((frame_setRender s _).mono (by simp)).trans (frame_applyDeferred _)
  · exact (frame_setRender s _).mono (by simp)

theorem frame_restoreCache (s : State) (l : Link) : Frame [.chart, .fault, .port l] s (s.restoreCache l) := by
  unfold State.restoreCache
  exact (((frame_setChart s _).mono (by simp)).trans ((frame_setFault _ _).mono (by simp))).trans
    ((frame_finish _ _ _ _).mono (by simp))

theorem frame_applyRestore (s : State) (l : Link) : Frame [.chart, .fault, .port l] s (s.applyRestore l) := by
  unfold State.applyRestore
  split
  · exact frame_restoreCache s l
  · exact Frame.refl _ _

/-- The blocks that a job's end and the work waiting for it may change. -/
abbrev gapBlocks : List Block := [.store, .render, .chart, .fault, .port .forecast, .port .studio]

theorem frame_gapWork (s : State) : Frame gapBlocks s s.gapWork := by
  unfold State.gapWork
  exact (((frame_applyDeferred s).mono (by simp)).trans ((frame_applyRestore _ .forecast).mono (by simp))).trans
    ((frame_applyRestore _ .studio).mono (by simp))

/-- A gap with nothing waiting for it changes nothing (R130). -/
theorem gapWork_nothing {s : State} (h : s.nothingWaits) : s.gapWork = s := by
  unfold State.gapWork State.applyDeferred State.applyRestore
  rw [h.1]
  simp [h.2]

theorem frame_endJob (s : State) : Frame gapBlocks s s.endJob := by
  unfold State.endJob
  exact (((frame_setJob s _).mono (by simp)).trans ((frame_setChart _ _).mono (by simp))).trans (frame_gapWork _)

theorem frame_completeJob (s : State) (j : Job) : Frame gapBlocks s (s.completeJob j) := by
  unfold State.completeJob
  dsimp only
  generalize s.render.setBuffer j.buffer _ = r
  split
  · exact ((((frame_setRender s _).mono (by simp)).trans ((frame_setRender _ _).mono (by simp))).trans
      ((frame_notify _ _ _).mono (by simp))).trans (frame_endJob _)
  · exact ((frame_setRender s _).mono (by simp)).trans (frame_endJob _)

theorem frame_discardJob (s : State) (j : Job) (tile : Nat) : Frame gapBlocks s (s.discardJob j tile) := by
  unfold State.discardJob
  exact (((frame_setRender s _).mono (by simp)).trans ((frame_notify _ _ _).mono (by simp))).trans (frame_endJob _)

/-! ### The coastline store and the drawing -/

/-- The blocks that drawing may change. -/
abbrev drawBlocks : List Block := [.render, .chart, .fault, .port .forecast]

theorem frame_serveTile (s : State) (r : TileRequest) :
    Frame [.chart, .fault, .port .forecast] s (s.serveTile r).1 := by
  unfold State.serveTile
  split
  · exact Frame.refl _ _
  · split
    · unfold State.serveCached
      split
      · exact Frame.refl _ _
      · split
        · exact (frame_setChart s _).mono (by simp)
        · exact ((frame_setChart s _).mono (by simp)).trans (frame_report _ _ _)
    · unfold State.serveWorking
      split
      · exact Frame.refl _ _
      · split
        · exact Frame.refl _ _
        · exact (frame_setChart s _).mono (by simp)

theorem frame_awaitFetch (s : State) (j : Job) (tile : Nat) : Frame [.render, .chart] s (s.awaitFetch j tile) := by
  unfold State.awaitFetch
  exact ((frame_setJob s _).mono (by simp)).trans ((frame_setChart _ _).mono (by simp))

theorem frame_settle (s : State) (j : Job) (it : DrawItem) (ans : Answer) : Frame [.render] s (s.settle j it ans) := by
  unfold State.settle
  exact frame_setRender s _

theorem frame_drawItem (s : State) (j : Job) (it : DrawItem) : Frame drawBlocks s (s.drawItem j it) := by
  unfold State.drawItem
  split
  · exact (frame_settle s j it _).mono (by simp)
  · rename_i r _
    have h := frame_serveTile s r
    split
    · rename_i t a e
      rw [e] at h
      exact (h.mono (by simp)).trans ((frame_settle t j it a).mono (by simp))
    · rename_i t e
      rw [e] at h
      exact (h.mono (by simp)).trans ((frame_awaitFetch t j _).mono (by simp))

theorem frame_drawItems (s : State) (items : List DrawItem) : Frame drawBlocks s (s.drawItems items) := by
  induction items generalizing s with
  | nil => exact Frame.refl _ _
  | cons it rest ih =>
    unfold State.drawItems
    split
    · exact Frame.refl _ _
    · split
      · exact Frame.refl _ _
      · exact (frame_drawItem s _ it).trans (ih _)

theorem frame_runJob (s : State) : Frame drawBlocks s s.runJob := frame_drawItems s _
theorem frame_drawOne (s : State) : Frame drawBlocks s s.drawOne := frame_drawItems s _

theorem frame_afterFetch (s : State) : Frame drawBlocks s s.afterFetch := by
  unfold State.afterFetch
  split
  · exact (frame_runJob s).trans ((frame_setChart _ _).mono (by simp))
  · exact Frame.refl _ _

theorem frame_passFetch (s : State) (tile : Nat) (d : Tile) : Frame [.chart] s (s.passFetch tile d) := by
  unfold State.passFetch
  dsimp only
  split <;> exact frame_setChart s _

theorem frame_giveUp (s : State) (tile : Nat) :
    Frame [.chart, .fault, .port .forecast] s (s.giveUp tile).1 := by
  unfold State.giveUp
  dsimp only
  split
  · exact ((frame_setChart s _).mono (by simp)).trans (frame_report _ _ _)
  · exact (((frame_setChart s _).mono (by simp)).trans ((frame_setStoreState _ _).mono (by simp))).trans
      (frame_report _ _ _)

theorem frame_failFetch (s : State) (tile : Nat) :
    Frame [.chart, .fault, .port .forecast] s (s.failFetch tile).1 := by
  unfold State.failFetch
  split
  · exact frame_giveUp s tile
  · split
    · exact ((frame_setChart s _).mono (by simp)).trans (frame_report _ _ _)
    · exact frame_giveUp s tile

theorem frame_endFetch (s : State) (r : TileRequest) (noise : List Byte) :
    Frame [.chart, .fault, .port .forecast] s (s.endFetch r noise).1 := by
  unfold State.endFetch
  split
  · exact Frame.refl _ _
  · split
    · exact (frame_passFetch s _ _).mono (by simp)
    · exact frame_failFetch s _

theorem frame_flashChanged (s : State) (flash : Mem Byte) :
    Frame [.chart, .port .forecast] s (s.flashChanged flash) := by
  unfold State.flashChanged
  exact ((frame_setChart s _).mono (by simp)).trans (frame_setStoreState _ _)

theorem frame_scanEnds (s : State) (commanded : Bool) (bytes : List Byte) :
    Frame [.chart, .fault, .port .forecast] s (s.scanEnds commanded bytes) := by
  unfold State.scanEnds
  split
  · exact ((frame_setChart s _).mono (by simp)).trans ((frame_setStoreState _ _).mono (by simp))
  · dsimp only
    split
    · exact (((frame_setChart s _).mono (by simp)).trans ((frame_setStoreState _ _).mono (by simp))).trans
        (frame_report _ _ _)
    · exact ((frame_setChart s _).mono (by simp)).trans ((frame_setStoreState _ _).mono (by simp))

/-! ### The frame start -/

/-- The blocks that a frame start may change. -/
abbrev frameBlocks : List Block :=
  [.clock, .keyEnable, .timing, .output, .pages, .store, .timelines, .blinks, .render, .memo, .port .forecast,
    .port .studio, .ahead]

theorem frame_holdoverFrame (s : State) : Frame [.clock, .timing] s s.holdoverFrame := by
  unfold State.holdoverFrame
  split
  · exact Frame.refl _ _
  · exact frame_setTiming s _

theorem frame_flipFrame (s : State) (f : Fin 4) : Frame [.store] s (s.flipFrame f) := by
  unfold State.flipFrame
  split
  · exact frame_setFieldSet s _ _
  · exact Frame.refl _ _

theorem frame_flipsFrame (s : State) : Frame [.store] s s.flipsFrame := by
  unfold State.flipsFrame
  generalize List.finRange 4 = fs
  induction fs generalizing s with
  | nil => exact Frame.refl _ _
  | cons f rest ih => exact (frame_flipFrame s f).trans (ih _)

theorem frame_memoSlotFrame (s : State) (d : MemoDir) : Frame [.memo] s (s.memoSlotFrame d) := by
  unfold State.memoSlotFrame
  split
  · exact Frame.refl _ _
  · exact frame_setMemoSlot s _ _

theorem frame_fadeFrame (s : State) : Frame [.keyEnable, .output, .pages] s s.fadeFrame := by
  unfold State.fadeFrame
  split
  · exact Frame.refl _ _
  · exact frame_outputFrame s

theorem frame_beforeRender (s : State) :
    Frame [.clock, .keyEnable, .timing, .output, .pages, .store, .timelines, .blinks, .memo] s s.beforeRender := by
  unfold State.beforeRender State.timelineFrame State.blinkFrame State.memoUnitFrame State.paletteFrame
  exact (((((((frame_holdoverFrame s).mono (by simp)).trans ((frame_setTimelines _ _).mono (by simp))).trans
    ((frame_setBlinks _ _).mono (by simp))).trans
      (((frame_memoSlotFrame _ _).mono (by simp)).trans ((frame_memoSlotFrame _ _).mono (by simp)))).trans
        ((frame_fadeFrame _).mono (by simp))).trans ((frame_flipsFrame _).mono (by simp))).trans
          ((frame_setOutput _ _).mono (by simp))

theorem frame_swapFrame (s : State) : Frame [.render, .pages] s s.swapFrame := by
  unfold State.swapFrame
  dsimp only
  split
  · exact ((frame_setRender s _).mono (by simp)).trans ((frame_endOutgoing _).mono (by simp))
  · exact (frame_setRender s _).mono (by simp)

theorem frame_startJob (s : State) : Frame [.render] s s.startJob := by
  unfold State.startJob
  split
  · exact frame_setRender s _
  · exact Frame.refl _ _

theorem frame_framed (s : State) : Frame frameBlocks s s.framed := by
  unfold State.framed State.lateFrame State.keyFrame
  exact ((((((frame_beforeRender s).mono (by simp)).trans ((frame_swapFrame _).mono (by simp))).trans
    ((frame_setRender _ _).mono (by simp))).trans ((frame_startJob _).mono (by simp))).trans
      ((frame_setOutput _ _).mono (by simp))).trans ((frame_setAhead _ _).mono (by simp))

theorem frame_queueAll (s : State) (ps : List Posting) :
    Frame [.port .forecast, .port .studio] s (s.queueAll ps) := by
  induction ps generalizing s with
  | nil => exact Frame.refl _ _
  | cons p rest ih =>
    refine ((frame_notify s p.link p.notice).mono ?_).trans (ih _)
    cases p.link <;> simp

end Sys2Proof.Machine
end

