-- ==== Sys2Proof/Laws/FrameStart.lean ====
section
/-! SUPPORT. What one frame start leaves in each block: the state that `State.framed` gives, field by field. -/

namespace Sys2Proof.Machine

/-! ### The parts that are one write of a block -/

section Parts

variable (s : State)

theorem frame_timelineFrame : Frame [.timelines] s s.timelineFrame := frame_setTimelines s _
theorem frame_blinkFrame : Frame [.blinks] s s.blinkFrame := frame_setBlinks s _
theorem frame_memoUnitFrame : Frame [.memo] s s.memoUnitFrame :=
  (frame_memoSlotFrame s _).trans (frame_memoSlotFrame _ _)
theorem frame_paletteFrame : Frame [.keyEnable, .output] s s.paletteFrame := frame_setOutput s _
theorem frame_lateFrame (swapped : Bool) : Frame [.render] s (s.lateFrame swapped) := frame_setRender s _
theorem frame_keyFrame : Frame [.keyEnable, .output] s s.keyFrame := frame_setOutput s _

theorem paletteFrame_output : s.paletteFrame.output = { s.output with palette := s.output.staged } := rfl
theorem lateFrame_render (swapped : Bool) :
    (s.lateFrame swapped).render = { s.render with late := s.render.lateAfter swapped s.pages.loaded.isSome } := rfl
theorem keyFrame_output : s.keyFrame.output = { s.output with keyEnable := s.frontKeyed, keyDropAt := none } := rfl
theorem setAhead_frontKeyed (v : List FramePart) : (s.setAhead v).frontKeyed = s.frontKeyed := rfl
theorem keyFrame_frontKeyed : s.keyFrame.frontKeyed = s.frontKeyed := rfl

/-- The timelines after a frame start: one that has acted ahead stands (R75). -/
theorem timelineFrame_timelines (n : Fin 4) :
    s.timelineFrame.timelines[n] = if s.isAhead (.timeline n) then s.timelines[n] else s.timelines[n].frame := by
  simp [State.timelineFrame]

/-- The blink generators after a frame start: one that has acted ahead stands (R88). -/
theorem blinkFrame_blinks (n : Fin 4) :
    s.blinkFrame.blinks[n] = if s.isAhead (.blink n) then s.blinks[n] else s.blinks[n].frame s.timing.began := by
  simp [State.blinkFrame]

/-- The holdover count moves nothing of the frame schedule (R9, R12). -/
theorem holdoverFrame_timing :
    s.holdoverFrame.timing = if s.isAhead .reference then s.timing else s.timing.holdoverFrame := by
  unfold State.holdoverFrame; split <;> rfl

/-- The holdover count's step changes what the generator keeps of the reference and nothing else (R9, R12). -/
theorem Timing.holdoverFrame_eq (t : Timing) :
    t.holdoverFrame = { t with
      refState := t.holdoverFrame.refState, expected := t.holdoverFrame.expected, pulseSeen := t.holdoverFrame.pulseSeen
      inWindow := t.holdoverFrame.inWindow, mismatch := t.holdoverFrame.mismatch, holdover := t.holdoverFrame.holdover } := by
  unfold Timing.holdoverFrame Timing.goFree; split
  any_goals rfl
  split <;> rfl

theorem Timing.holdoverFrame_began (t : Timing) : t.holdoverFrame.began = t.began := by rw [t.holdoverFrame_eq]

@[simp] theorem holdoverFrame_began : s.holdoverFrame.timing.began = s.timing.began := by
  rw [holdoverFrame_timing]; split
  · rfl
  · exact Timing.holdoverFrame_began _

end Parts

/-! ### The output stage -/

/-- Entering DARK and the key enable's drop leave the fade's and the cut's values (R26, R28). -/
theorem outputFrame_output (s : State) :
    s.outputFrame.output = { s.output.frame s.pages.loaded.isSome with
      keyEnable := s.outputFrame.output.keyEnable, keyDropAt := s.outputFrame.output.keyDropAt } := by
  unfold State.outputFrame
  dsimp only
  split
  · exact frame_dropKey _ .output (by simp)
  · rfl

/-- A frame start at which the output becomes DARK ends an OUTGOING page; the LOADED page and the contents stand (R26). -/
theorem outputFrame_pages (s : State) :
    s.outputFrame.pages =
      if (s.output.frame s.pages.loaded.isSome).state = .dark ∧ s.output.state ≠ .dark then
        { s.pages with outgoing := none }
      else s.pages := by
  unfold State.outputFrame
  dsimp only
  by_cases h : (s.setOutput (s.output.frame s.pages.loaded.isSome)).output.state = .dark ∧ s.output.state ≠ .dark
  · rw [if_pos h, if_pos (show (s.output.frame s.pages.loaded.isSome).state = .dark ∧ s.output.state ≠ .dark from h),
      (frame_dropKey _).pages_eq (by simp)]
    rfl
  · rw [if_neg h, if_neg (show ¬((s.output.frame s.pages.loaded.isSome).state = .dark ∧ s.output.state ≠ .dark) from h)]
    rfl

/-! ### Before the renderer -/

section Before

variable (s : State)

/-- The generator, the timelines, the blink generators and the memo unit have handled the frame start. -/
def State.timed : State := s.holdoverFrame.timelineFrame.blinkFrame.memoUnitFrame

theorem frame_timed : Frame [.clock, .timing, .timelines, .blinks, .memo] s s.timed :=
  ((((frame_holdoverFrame s).mono (by simp)).trans ((frame_timelineFrame _).mono (by simp))).trans
    ((frame_blinkFrame _).mono (by simp))).trans ((frame_memoUnitFrame _).mono (by simp))

theorem beforeRender_eq : s.beforeRender = s.timed.fadeFrame.flipsFrame.paletteFrame := by
  simp only [State.beforeRender, State.timed]

theorem frame_beforeRender_timed :
    Frame [.keyEnable, .output, .pages, .store] s.timed s.beforeRender := by
  rw [beforeRender_eq]
  exact (((frame_fadeFrame _).mono (by simp)).trans ((frame_flipsFrame _).mono (by simp))).trans
    ((frame_paletteFrame _).mono (by simp))

theorem timed_timing : s.timed.timing = s.holdoverFrame.timing := by
  unfold State.timed
  rw [(frame_memoUnitFrame _).timing_eq (by simp) (by simp), (frame_blinkFrame _).timing_eq (by simp) (by simp),
    (frame_timelineFrame _).timing_eq (by simp) (by simp)]

theorem timed_timelines : s.timed.timelines = s.timelineFrame.timelines := by
  unfold State.timed
  rw [(frame_memoUnitFrame _).timelines_eq (by simp), (frame_blinkFrame _).timelines_eq (by simp)]
  simp only [State.timelineFrame, State.setTimelines_timelines, State.isAhead, (frame_holdoverFrame s).ahead_eq (by simp),
    (frame_holdoverFrame s).timelines_eq (by simp)]
  rfl

theorem timed_blinks : s.timed.blinks = s.blinkFrame.blinks := by
  unfold State.timed
  rw [(frame_memoUnitFrame _).blinks_eq (by simp)]
  have h : Frame [.clock, .timing, .timelines] s s.holdoverFrame.timelineFrame :=
    ((frame_holdoverFrame s).mono (by simp)).trans ((frame_timelineFrame _).mono (by simp))
  have hb : s.holdoverFrame.timelineFrame.timing.began = s.timing.began := by
    rw [(frame_timelineFrame _).timing_eq (by simp) (by simp), holdoverFrame_began]
  simp only [State.blinkFrame, State.setBlinks_blinks, State.isAhead, h.ahead_eq (by simp), h.blinks_eq (by simp), hb]
  rfl

theorem beforeRender_timing : s.beforeRender.timing = s.holdoverFrame.timing := by
  rw [(frame_beforeRender_timed s).timing_eq (by simp) (by simp), timed_timing]
theorem beforeRender_timelines : s.beforeRender.timelines = s.timelineFrame.timelines := by
  rw [(frame_beforeRender_timed s).timelines_eq (by simp), timed_timelines]
theorem beforeRender_blinks : s.beforeRender.blinks = s.blinkFrame.blinks := by
  rw [(frame_beforeRender_timed s).blinks_eq (by simp), timed_blinks]
theorem beforeRender_render : s.beforeRender.render = s.render := (frame_beforeRender s).render_eq (by simp)

theorem timed_output : s.timed.output = s.output := (frame_timed s).output_eq (by simp) (by simp)
theorem timed_pages : s.timed.pages = s.pages := (frame_timed s).pages_eq (by simp)
theorem timed_isAhead (h : FramePart) : s.timed.isAhead h = s.isAhead h := by
  unfold State.isAhead; rw [(frame_timed s).ahead_eq (by simp)]

/-- The staged palette is not the fade's or the cut's. -/
theorem OutputStage.frame_staged (o : OutputStage) (b : Bool) : (o.frame b).staged = o.staged := by
  unfold OutputStage.frame OutputStage.applyCut OutputStage.fadeStep
  repeat' split
  all_goals rfl

theorem fadeFrame_output :
    s.fadeFrame.output =
      { (if s.isAhead .output then s.output else s.output.frame s.pages.loaded.isSome) with
        keyEnable := s.fadeFrame.output.keyEnable
        keyDropAt := s.fadeFrame.output.keyDropAt } := by
  unfold State.fadeFrame
  by_cases h : s.isAhead .output = true
  · rw [if_pos h, if_pos h]
  · rw [if_neg h, if_neg h]; exact outputFrame_output s

theorem fadeFrame_pages :
    s.fadeFrame.pages =
      if s.isAhead .output = false ∧ (s.output.frame s.pages.loaded.isSome).state = .dark ∧ s.output.state ≠ .dark then
        { s.pages with outgoing := none }
      else s.pages := by
  unfold State.fadeFrame
  by_cases h : s.isAhead .output = true
  · simp [h]
  · rw [if_neg h, outputFrame_pages]; simp [h]

/-- The output stage after its step, its palette the staged one; the key enable is set after the renderer (R21, R22, R30). -/
theorem beforeRender_output :
    s.beforeRender.output =
      { (if s.isAhead .output then s.output else s.output.frame s.pages.loaded.isSome) with
        palette := s.output.staged
        keyEnable := s.beforeRender.output.keyEnable
        keyDropAt := s.beforeRender.output.keyDropAt } := by
  have h2 : s.beforeRender.output = { s.timed.fadeFrame.output with palette := s.timed.fadeFrame.output.staged } := by
    rw [beforeRender_eq, paletteFrame_output, (frame_flipsFrame _).output_eq (by simp) (by simp)]
  rw [h2, fadeFrame_output, timed_isAhead, timed_output, timed_pages]
  by_cases h : s.isAhead .output = true
  · simp [h]
  · simp [h, OutputStage.frame_staged]

/-- The pages after the output stage's step: an OUTGOING page ends where the output becomes DARK (R26). -/
theorem beforeRender_pages :
    s.beforeRender.pages =
      if s.isAhead .output = false ∧ (s.output.frame s.pages.loaded.isSome).state = .dark ∧ s.output.state ≠ .dark then
        { s.pages with outgoing := none }
      else s.pages := by
  rw [beforeRender_eq, (frame_paletteFrame _).pages_eq (by simp), (frame_flipsFrame _).pages_eq (by simp),
    fadeFrame_pages, timed_isAhead, timed_output, timed_pages]

end Before

/-! ### The flips -/

/-- A field set flips by itself: the flips of one frame start read and change their own field set alone (R58). -/
theorem flipFrame_other (s : State) {f g : Fin 4} (h : g ≠ f) : (s.flipFrame f).store.sets[g] = s.store.sets[g] := by
  unfold State.flipFrame
  split
  · have h' : f.val ≠ g.val := fun e => h (Fin.ext e).symm
    simp [State.setFieldSet, h']
  · rfl

theorem flipFrame_same (s : State) (f : Fin 4) :
    (s.flipFrame f).store.sets[f] =
      if s.flips f (fun t => s.timelines[t].shown.boundary) && !s.isAhead (.flip f) then s.store.sets[f].flip
      else s.store.sets[f] := by
  unfold State.flipFrame
  split <;> simp [State.setFieldSet]

/-- Each field set after the flips of a frame start (R58, R59). -/
theorem flipsFrame_sets (s : State) (f : Fin 4) :
    s.flipsFrame.store.sets[f] =
      if s.flips f (fun t => s.timelines[t].shown.boundary) && !s.isAhead (.flip f) then s.store.sets[f].flip
      else s.store.sets[f] := by
  have key : ∀ (fs : List (Fin 4)) (s : State), fs.Nodup →
      ((fs.foldl State.flipFrame s).store.sets[f] =
        if f ∈ fs then (s.flipFrame f).store.sets[f] else s.store.sets[f]) := by
    intro fs
    induction fs with
    | nil => intro s _; simp
    | cons g rest ih =>
      intro s hn
      obtain ⟨hg, hr⟩ := List.nodup_cons.1 hn
      rw [List.foldl_cons, ih _ hr]
      by_cases hf : f = g
      · subst hf
        simp [hg]
      · have e : (s.flipFrame g).store.sets[f] = s.store.sets[f] := flipFrame_other s hf
        by_cases hm : f ∈ rest
        · simp only [hm, if_true, List.mem_cons, or_true]
          rw [flipFrame_same, flipFrame_same, e]
          have e1 : (s.flipFrame g).timelines = s.timelines := (frame_flipFrame s g).timelines_eq (by simp)
          have e2 : (s.flipFrame g).pages = s.pages := (frame_flipFrame s g).pages_eq (by simp)
          have e3 : (s.flipFrame g).render = s.render := (frame_flipFrame s g).render_eq (by simp)
          have e4 : (s.flipFrame g).ahead = s.ahead := (frame_flipFrame s g).ahead_eq (by simp)
          simp [State.flips, State.isAhead, e, e1, e2, e3, e4]
        · simp [hm, hf, e]
  unfold State.flipsFrame
  rw [key _ _ (List.nodup_finRange 4), if_pos (List.mem_finRange f), flipFrame_same]

/-! ### The whole frame start -/

section Framed

variable (s : State)

theorem swapFrame_render : s.swapFrame.render = s.render.swap := by
  unfold State.swapFrame; dsimp only; split <;> rfl

/-- A swap that brings a frame of the LOADED page to the front ends an OUTGOING page (R47). -/
theorem swapFrame_pages :
    s.swapFrame.pages =
      if s.render.hasReady = true ∧ s.render.swap.frontTag.isSome = true ∧ s.render.swap.frontTag = s.pages.loaded then
        { s.pages with outgoing := none }
      else s.pages := by
  unfold State.swapFrame
  dsimp only
  split
  · rename_i h; rw [State.setRender_render] at h; rw [if_pos h]; rfl
  · rename_i h; rw [State.setRender_render] at h; rw [if_neg h]; rfl

theorem swapFrame_loaded : s.swapFrame.pages.loaded = s.pages.loaded := by
  unfold State.swapFrame; dsimp only; split <;> rfl

theorem swapFrame_contents : s.swapFrame.pages.pages = s.pages.pages := by
  unfold State.swapFrame; dsimp only; split <;> rfl

/-- The state in which the frame start's job may start. -/
def State.atRender : State := s.beforeRender.swapFrame.lateFrame s.beforeRender.render.hasReady

theorem framed_eq : s.framed = (s.atRender.startJob.keyFrame).setAhead [] := by
  simp only [State.framed, State.atRender]

theorem frame_atRender : Frame [.render, .pages] s.beforeRender s.atRender :=
  (frame_swapFrame _).trans ((frame_lateFrame _ _).mono (by simp))

theorem frame_framed_after : Frame [.render, .pages, .keyEnable, .output, .ahead] s.beforeRender s.framed := by
  rw [framed_eq]
  exact ((((frame_atRender s).mono (by simp)).trans ((frame_startJob _).mono (by simp))).trans
    ((frame_keyFrame _).mono (by simp))).trans ((frame_setAhead _ _).mono (by simp))

theorem framed_timing : s.framed.timing = s.holdoverFrame.timing := by
  rw [(frame_framed_after s).timing_eq (by simp) (by simp), beforeRender_timing]
theorem framed_timelines : s.framed.timelines = s.timelineFrame.timelines := by
  rw [(frame_framed_after s).timelines_eq (by simp), beforeRender_timelines]
theorem framed_blinks : s.framed.blinks = s.blinkFrame.blinks := by
  rw [(frame_framed_after s).blinks_eq (by simp), beforeRender_blinks]
theorem framed_ahead : s.framed.ahead = [] := by rw [framed_eq]; rfl

/-- The render controller as the job may start: swapped, its late flag judged after the swap (R110, R112). -/
theorem atRender_render :
    s.atRender.render = { s.render.swap with late := s.render.swap.lateAfter s.render.hasReady s.pages.loaded.isSome } := by
  unfold State.atRender
  rw [lateFrame_render, swapFrame_render, swapFrame_loaded, beforeRender_render, beforeRender_pages]
  split <;> rfl

theorem framed_render : s.framed.render = s.atRender.startJob.render := by
  rw [framed_eq, State.setAhead_render, (frame_keyFrame _).render_eq (by simp)]

/-- The pages after a frame start are those at which the job may start. -/
theorem framed_pages : s.framed.pages = s.atRender.pages := by
  rw [framed_eq, State.setAhead_pages, (frame_keyFrame _).pages_eq (by simp), (frame_startJob _).pages_eq (by simp)]

/-- The pages after a frame start: an OUTGOING page ends where the output becomes DARK or a frame of the LOADED page comes to the
front (R26, R47). -/
theorem framed_pages_eq :
    s.framed.pages =
      if s.render.hasReady = true ∧ s.render.swap.frontTag.isSome = true ∧ s.render.swap.frontTag = s.pages.loaded then
        { s.pages with outgoing := none }
      else s.beforeRender.pages := by
  rw [framed_pages]
  unfold State.atRender
  rw [(frame_lateFrame _ _).pages_eq (by simp), swapFrame_pages, beforeRender_render]
  have hl : s.beforeRender.pages.loaded = s.pages.loaded := by rw [beforeRender_pages]; split <;> rfl
  rw [hl]
  split
  · rw [beforeRender_pages]; split <;> rfl
  · rfl

theorem framed_loaded : s.framed.pages.loaded = s.pages.loaded := by
  rw [framed_pages]
  unfold State.atRender
  rw [(frame_lateFrame _ _).pages_eq (by simp), swapFrame_loaded, beforeRender_pages]
  split <;> rfl

theorem framed_contents : s.framed.pages.pages = s.pages.pages := by
  rw [framed_pages]
  unfold State.atRender
  rw [(frame_lateFrame _ _).pages_eq (by simp), swapFrame_contents, beforeRender_pages]
  split <;> rfl

/-- The output stage after a frame start (R21, R22, R28, R30). -/
theorem framed_output :
    s.framed.output =
      { (if s.isAhead .output then s.output else s.output.frame s.pages.loaded.isSome) with
        palette := s.output.staged
        keyEnable := s.framed.frontKeyed
        keyDropAt := none } := by
  have h1 : s.atRender.startJob.output = s.beforeRender.output := by
    rw [(frame_startJob _).output_eq (by simp) (by simp), (frame_atRender s).output_eq (by simp) (by simp)]
  have h2 : s.framed.frontKeyed = s.atRender.startJob.frontKeyed := by
    rw [framed_eq, setAhead_frontKeyed, keyFrame_frontKeyed]
  rw [h2, framed_eq, State.setAhead_output, keyFrame_output, h1, beforeRender_output]

/-- Each field set after a frame start (R58, R59). -/
theorem framed_sets (f : Fin 4) :
    s.framed.store.sets[f] =
      if s.flips f (fun t => s.timelineFrame.timelines[t].shown.boundary) && !s.isAhead (.flip f) then
        s.store.sets[f].flip
      else s.store.sets[f] := by
  have h1 : s.framed.store = s.timed.fadeFrame.flipsFrame.store := by
    rw [(frame_framed_after s).store_eq (by simp), beforeRender_eq, (frame_paletteFrame _).store_eq (by simp)]
  have hs : s.timed.fadeFrame.store = s.store := by
    rw [(frame_fadeFrame _).store_eq (by simp), (frame_timed s).store_eq (by simp)]
  have hr : s.timed.fadeFrame.render = s.render := by
    rw [(frame_fadeFrame _).render_eq (by simp), (frame_timed s).render_eq (by simp)]
  have ha : s.timed.fadeFrame.ahead = s.ahead := by
    rw [(frame_fadeFrame _).ahead_eq (by simp), (frame_timed s).ahead_eq (by simp)]
  have ht : s.timed.fadeFrame.timelines = s.timelineFrame.timelines := by
    rw [(frame_fadeFrame _).timelines_eq (by simp), timed_timelines]
  have hp : s.timed.fadeFrame.pages.flipTimelines f = s.pages.flipTimelines f := by
    have hl : s.timed.fadeFrame.pages.loadedRecord = s.pages.loadedRecord := by
      rw [fadeFrame_pages, timed_pages]
      split <;> rfl
    simp only [PageTable.flipTimelines, hl]
  rw [h1, flipsFrame_sets, hs]
  simp only [State.flips, State.isAhead, PageTable.timelinesAtBoundary, hs, hr, ha, ht, hp]
  rfl

end Framed

/-! ### Entering a frame start (R5, R15, R17) -/

section Entering

variable (t : Timing)

/-- A nudge that applies moves the scheduled frame start to the instant at which the frame is to end (R15). -/
theorem Timing.applyNudge_scheduled : t.applyNudge.scheduled = t.frameInstant := by
  unfold Timing.applyNudge
  cases hn : t.nudge with
  | none => simp [Timing.frameInstant, Timing.nudgeNow, hn]
  | some n =>
    by_cases hq : n.qualifies t.scheduled t.scheduledAt = true
    · simp [hq]
    · simp [hq, Timing.frameInstant, Timing.nudgeNow, hn]

@[simp] theorem Timing.applyNudge_frame : t.applyNudge.frame = t.frame := by
  unfold Timing.applyNudge; split
  · rfl
  · split <;> rfl
@[simp] theorem Timing.applyNudge_now : t.applyNudge.now = t.now := by
  unfold Timing.applyNudge; split
  · rfl
  · split <;> rfl
@[simp] theorem Timing.applyNudge_pendingOffset : t.applyNudge.pendingOffset = t.pendingOffset := by
  unfold Timing.applyNudge; split
  · rfl
  · split <;> rfl
@[simp] theorem Timing.applyNudge_refState : t.applyNudge.refState = t.refState := by
  unfold Timing.applyNudge; split
  · rfl
  · split <;> rfl
@[simp] theorem Timing.applyNudge_rate : t.applyNudge.rate = t.rate := by
  unfold Timing.applyNudge; split
  · rfl
  · split <;> rfl
@[simp] theorem Timing.applyNudge_panicAt : t.applyNudge.panicAt = t.panicAt := by
  unfold Timing.applyNudge; split
  · rfl
  · split <;> rfl

@[simp] theorem Timing.applyOffset_now : t.applyOffset.now = t.now := by
  unfold Timing.applyOffset; split <;> rfl
@[simp] theorem Timing.applyOffset_refState : t.applyOffset.refState = t.refState := by
  unfold Timing.applyOffset; split <;> rfl

@[simp] theorem Timing.frameStart_frame : t.frameStart.frame = t.frame + 1 := by
  simp [Timing.frameStart, Timing.beginFrame]
@[simp] theorem Timing.frameStart_began : t.frameStart.began = t.frameInstant := by
  simp [Timing.frameStart, Timing.beginFrame, Timing.applyNudge_scheduled]
@[simp] theorem Timing.frameStart_now : t.frameStart.now = t.now := by
  simp [Timing.frameStart, Timing.beginFrame]
@[simp] theorem Timing.frameStart_refState : t.frameStart.refState = t.refState := by
  simp [Timing.frameStart, Timing.beginFrame]
@[simp] theorem Timing.frameStart_panicAt : t.frameStart.panicAt = t.panicAt.map (min · t.frameInstant) := by
  simp [Timing.frameStart, Timing.beginFrame, Timing.applyNudge_scheduled]
/-- The next frame start follows the one entered by the length of the frame that begins there (R5, R17). -/
theorem Timing.frameStart_scheduled : t.frameStart.scheduled = t.frameInstant + t.applyNudge.nextLength := by
  simp [Timing.frameStart, Timing.beginFrame, Timing.applyNudge_scheduled]

end Entering

/-- The frame start schedule after the generator's own step where no offset is pending (R5). -/
theorem Timing.frameStart_total {t : Timing} (h : t.pendingOffset = none) :
    t.frameStart.scheduled = t.frameInstant + t.total := by
  rw [Timing.frameStart_scheduled]
  simp [Timing.nextLength, h, Timing.total]

/-- A pending nudge moves the scheduled frame start exactly where R15's conditions hold. -/
theorem PendingNudge.qualifies_iff (n : PendingNudge) (scheduled scheduledAt : Nat) :
    n.qualifies scheduled scheduledAt = true ↔
      n.behindOffset = false ∧ n.takenAt + 16 < scheduled ∧ (∀ e, n.offsetAt = some e → e + 16 < scheduled) ∧
        scheduledAt + 16 < scheduled := by
  unfold PendingNudge.qualifies
  cases n.offsetAt <;> simp [and_assoc]

/-- The generator's own step does not read the clock. -/
theorem Timing.frameStart_at (t : Timing) (n : Nat) : ({ t with now := n } : Timing).frameStart = { t.frameStart with now := n } := by
  have hn : ({ t with now := n } : Timing).applyNudge = { t.applyNudge with now := n } := by
    unfold Timing.applyNudge; dsimp only; split
    · rfl
    · split <;> rfl
  unfold Timing.frameStart Timing.beginFrame
  rw [hn]
  unfold Timing.applyOffset Timing.nextLength
  dsimp only
  split <;> rfl

/-- Entering a frame start whose number is not yet current is the generator's own step at its instant (R5). -/
theorem enterFrame_timing {s : State} (h : s.isAhead .generator = false) :
    s.enterFrame.timing = { s.timing.frameStart with now := max s.timing.now s.timing.frameInstant } := by
  rw [← Timing.frameStart_at]
  simp [State.enterFrame, h]

/-- Entering a frame start clears the key enable where a clearing waits for a line start (R28). -/
theorem enterFrame_output {s : State} (h : s.isAhead .generator = false) :
    s.enterFrame.output =
      match s.output.keyDropAt with
      | none => s.output
      | some _ => { s.output with keyEnable := false, keyDropAt := none } := by
  have e : s.enterFrame.output = (((s.advanceTo s.timing.frameInstant).setTiming
      (s.advanceTo s.timing.frameInstant).timing.frameStart).clearKeyAtFrame).output := by
    simp [State.enterFrame, h]
  rw [e, State.clearKeyAtFrame_output, State.setTiming_output, State.advanceTo_output_eq]
  cases hd : s.output.keyDropAt with
  | none => simp [hd]
  | some d =>
    by_cases c : d ≤ max s.timing.now s.timing.frameInstant
    · simp only [if_pos c]
    · simp only [if_neg c, hd]

/-- A frame start that has been entered is not entered again. -/
theorem enterFrame_entered {s : State} (h : s.isAhead .generator = true) : s.enterFrame = s := by
  simp [State.enterFrame, h]

/-- A PANIC that acts at a line start within the frame moves the clock there, and nothing else of the timing generator (R25). -/
theorem reachPanic_line {s : State} (h : s.timing.panicDue ≠ s.timing.frameInstant) :
    s.reachPanic = s.advanceTo s.timing.panicDue := by
  simp [State.reachPanic, Timing.panicAtFrame, h]

/-- A PANIC that acts at the frame start now due enters it (R25, R27). -/
theorem reachPanic_frame {s : State} (h : s.timing.panicDue = s.timing.frameInstant) :
    s.reachPanic = s.enterFrame.advanceTo s.timing.frameInstant := by
  simp [State.reachPanic, Timing.panicAtFrame, h]

/-- Reaching the line start at which a PANIC acts brings the clock there, or leaves it where it is past that (R25, log 3). -/
theorem reachPanic_now (s : State) : s.reachPanic.timing.now = max s.timing.now s.timing.panicDue := by
  by_cases h : s.timing.panicDue = s.timing.frameInstant
  · rw [reachPanic_frame h, State.advanceTo_timing, h]
    cases g : s.isAhead .generator with
    | true => rw [enterFrame_entered g]
    | false => rw [enterFrame_timing g]; simp
  · rw [reachPanic_line h, State.advanceTo_timing]

/-- The notices queued at a frame start change the ports alone. -/
theorem frameStart_next (order : List FramePart) (s : State) :
    ∃ t, exec (.frameStart order) s = .next t ∧
      Frame [.port .forecast, .port .studio] s.enterFrame.framed t :=
  ⟨_, rfl, frame_queueAll _ _⟩

end Sys2Proof.Machine
end

