-- ==== Sys2Proof/Laws/Drawing.lean ====
section
/-! SUPPORT. How a job's drawing runs on: the cases of one item, induction over the items drawn, what a job's end and the work waiting
for it do to each block, and what a fetch whose record fails does. -/

namespace Sys2Proof.Machine

/-! ### One item, and a run of items -/

/-- An item is drawn with an answer, or the job comes to wait for a fetch; before that the store's handling of the request has changed
the coastline store, the fault unit and the forecast port alone (R126, R137). -/
theorem drawItem_cases (s : State) (j : Job) (it : DrawItem) :
    ∃ u, Frame [.chart, .fault, .port .forecast] s u ∧
      ((∃ ans, s.drawItem j it = u.settle j it ans) ∨
        ∃ r, j.request it = some r ∧ s.drawItem j it = u.awaitFetch j r.tile) := by
  unfold State.drawItem
  split
  · exact ⟨s, Frame.refl _ _, .inl ⟨_, rfl⟩⟩
  · rename_i r hr
    have h := frame_serveTile s r
    split
    · rename_i t a e
      rw [e] at h
      exact ⟨t, h, .inl ⟨a, rfl⟩⟩
    · rename_i t e
      rw [e] at h
      exact ⟨t, h, .inr ⟨r, hr, rfl⟩⟩

/-- What each drawn item keeps, a run of items keeps. -/
theorem drawItems_induction {P : State → Prop}
    (item : ∀ (s : State) (j : Job) (it : DrawItem), P s → s.render.job = some j → j.fetching = none →
      P (s.drawItem j it)) (s : State) (items : List DrawItem) (h : P s) : P (s.drawItems items) := by
  induction items generalizing s with
  | nil => exact h
  | cons it rest ih =>
    unfold State.drawItems
    split
    · exact h
    · rename_i j hj
      split
      · exact h
      · rename_i hf
        exact ih _ (item s j it h hj (by simpa using hf))

/-- A job that waits for a fetch draws nothing (R126). -/
theorem drawItems_fetching {s : State} {j : Job} (items : List DrawItem) (hj : s.render.job = some j)
    (hf : j.fetching.isSome = true) : s.drawItems items = s := by
  cases items with
  | nil => rfl
  | cons it rest => simp [State.drawItems, hj, hf]

theorem runJob_fetching {s : State} {j : Job} (hj : s.render.job = some j) (hf : j.fetching.isSome = true) :
    s.runJob = s := drawItems_fetching _ hj hf

/-- A job that has drawn every item has none left. -/
theorem runJob_drawn {s : State} {j : Job} (hj : s.render.job = some j)
    (hd : (j.items s.store.lists).length ≤ j.drawn) : s.runJob = s := by
  have h : s.remaining = [] := by
    unfold State.remaining
    rw [hj]
    exact List.drop_eq_nil_of_le hd
  unfold State.runJob
  rw [h]
  rfl

/-- With no job in flight nothing is drawn. -/
theorem runJob_none {s : State} (hj : s.render.job = none) : s.runJob = s := by
  unfold State.runJob State.remaining
  rw [hj]
  rfl

/-- An item that asks the coastline store nothing is drawn at once. -/
theorem drawItem_plain {s : State} {j : Job} {it : DrawItem} (h : j.request it = none) :
    s.drawItem j it = s.settle j it Answer.sea := by
  simp [State.drawItem, h]

/-- An item whose request is answered without its record is drawn at once (R137). -/
theorem drawItem_quick {s : State} {j : Job} {it : DrawItem} {r : TileRequest} {a : Answer} (h : j.request it = some r)
    (hq : s.chart.quickAnswer r = some a) : s.drawItem j it = s.settle j it a := by
  simp [State.drawItem, h, State.serveTile, hq]

/-! ### Buffers -/

@[simp] theorem Render.setBuffer_same (r : Render) (w : BufferId) (v : FrameBuffer) : (r.setBuffer w v).buffer w = v := by
  cases w <;> rfl
theorem Render.setBuffer_other (r : Render) {w x : BufferId} (h : x ≠ w) (v : FrameBuffer) :
    (r.setBuffer w v).buffer x = r.buffer x := by
  cases w <;> cases x <;> first | rfl | exact absurd rfl h
@[simp] theorem Render.setBuffer_job (r : Render) (w : BufferId) (v : FrameBuffer) : (r.setBuffer w v).job = r.job := by
  cases w <;> rfl
@[simp] theorem Render.setBuffer_late (r : Render) (w : BufferId) (v : FrameBuffer) : (r.setBuffer w v).late = r.late := by
  cases w <;> rfl
@[simp] theorem Render.setBuffer_newlyLoaded (r : Render) (w : BufferId) (v : FrameBuffer) :
    (r.setBuffer w v).newlyLoaded = r.newlyLoaded := by
  cases w <;> rfl
@[simp] theorem Render.setBuffer_deferred (r : Render) (w : BufferId) (v : FrameBuffer) :
    (r.setBuffer w v).deferred = r.deferred := by
  cases w <;> rfl

/-! ### The work waiting for a gap (R130) -/

section Gap

variable (s : State)

/-- Applying a deferred write leaves everything of the renderer but the queue (R66). -/
theorem applyDeferred_render : s.applyDeferred.render = { s.render with deferred := s.render.deferred.tail } := by
  unfold State.applyDeferred
  split
  · rename_i h; rw [h, List.tail_nil, ← h]
  · rename_i h; simp [h]

theorem applyDeferred_nil (h : s.render.deferred = []) : s.applyDeferred = s := by
  unfold State.applyDeferred; rw [h]

/-- Each gap leaves everything of the renderer but the queue of deferred writes (R130). -/
theorem gapWork_render : s.gapWork.render = { s.render with deferred := s.render.deferred.tail } := by
  unfold State.gapWork
  rw [(frame_applyRestore _ _).render_eq (by simp), (frame_applyRestore _ _).render_eq (by simp), applyDeferred_render]

theorem gapWork_store : s.gapWork.store = s.applyDeferred.store := by
  unfold State.gapWork
  rw [(frame_applyRestore _ _).store_eq (by simp), (frame_applyRestore _ _).store_eq (by simp)]

/-- A CACHE RESTORE leaves the fault record (R155). -/
theorem applyRestore_record (l : Link) : (s.applyRestore l).fault.record = s.fault.record := by
  unfold State.applyRestore State.restoreCache
  split <;> simp

/-- A CACHE RESTORE changes the cache and the working tile alone of the coastline store (R155). -/
theorem applyRestore_chart (l : Link) :
    (s.applyRestore l).chart = s.chart ∨ (s.applyRestore l).chart = { s.chart.flush with working := none } := by
  unfold State.applyRestore State.restoreCache
  split
  · right; simp
  · exact .inl rfl

theorem gapWork_record : s.gapWork.fault.record = s.fault.record := by
  unfold State.gapWork
  rw [applyRestore_record, applyRestore_record, (frame_applyDeferred s).fault_eq (by simp)]

/-- The gap's work leaves the store's state, its lists, its directory image, its flash, its operation and its port. -/
theorem gapWork_chart :
    s.gapWork.chart = { s.chart with cache := s.gapWork.chart.cache, working := s.gapWork.chart.working } := by
  have h := (frame_applyDeferred s).chart_eq (by simp)
  unfold State.gapWork
  rcases applyRestore_chart (s.applyDeferred.applyRestore .forecast) .studio with e | e <;>
    rcases applyRestore_chart s.applyDeferred .forecast with g | g <;> rw [e, g, h] <;> rfl

theorem endJob_render : s.endJob.render = { s.render with job := none, deferred := s.render.deferred.tail } := by
  unfold State.endJob
  rw [gapWork_render]
  rfl

theorem endJob_chart :
    s.endJob.chart = { s.chart with cache := s.endJob.chart.cache, working := s.endJob.chart.working } := by
  unfold State.endJob
  rw [gapWork_chart]
  rfl

theorem endJob_record : s.endJob.fault.record = s.fault.record := by
  unfold State.endJob
  rw [gapWork_record]
  rfl

end Gap

/-- An unpoisoned completion's renderer (R114, R128). -/
theorem completeJob_render (s : State) (j : Job) :
    (s.completeJob j).render =
      { s.render.setBuffer j.buffer { s.render.buffer j.buffer with
          role := .ready, tag := if j.contentStands then some j.page else none } with
        job := none
        newlyLoaded := if j.announce = true ∧ s.render.newlyLoaded = some j.page then none else s.render.newlyLoaded
        deferred := s.render.deferred.tail } := by
  unfold State.completeJob
  dsimp only
  generalize hr : s.render.setBuffer j.buffer _ = r
  have h1 : r.newlyLoaded = s.render.newlyLoaded := by rw [← hr]; simp
  have h2 : r.deferred = s.render.deferred := by rw [← hr]; simp
  split
  · rename_i hc
    rw [State.setRender_render, h1] at hc
    rw [endJob_render, if_pos hc]
    simp [h2]
  · rename_i hc
    rw [State.setRender_render, h1] at hc
    rw [endJob_render, if_neg hc]
    simp [h2, ← h1]

/-- A poisoned completion's renderer (R127, R129). -/
theorem discardJob_render (s : State) (j : Job) (tile : Nat) :
    (s.discardJob j tile).render =
      { s.render.setBuffer j.buffer { s.render.buffer j.buffer with role := .free } with
        job := none
        deferred := s.render.deferred.tail } := by
  unfold State.discardJob
  rw [endJob_render]
  simp

/-- A discarded job's state is the one that its end leaves, with the work that waits for the gap then done: the fault unit and the
forecast port as they were, and FRAME_DISCARDED on the studio link (R129, R130). -/
theorem discardJob_gap (s : State) (j : Job) (tile : Nat) :
    ∃ q : State, s.discardJob j tile = q.gapWork ∧ q.fault = s.fault ∧ q.forecast = s.forecast ∧
      q.studio = Port.notify ((Notice.frameDiscarded (some tile) j.page j.frame).packet s.timing.frame) s.studio :=
  ⟨_, rfl, rfl, rfl, rfl⟩

/-! ### A record that fails (R139, R149, R150) -/

/-- A HARD fault never puts the cache in BYPASS (R149). -/
theorem escalates_hard (u : FaultUnit) {k : FaultKind} (h : k.severity = .hard) : u.escalates k = false := by
  unfold FaultUnit.escalates
  rw [h]
  cases u.record <;> rfl

/-- A HARD fault is captured and queues its FAULT notice, and nothing else (R149, R150). -/
theorem report_hard (s : State) {k : FaultKind} (tile : Option Nat) (h : k.severity = .hard) :
    s.report k tile = (s.setFault (s.fault.capture k tile s.timing.frame)).notify .forecast (.fault k tile) := by
  unfold State.report
  simp [escalates_hard _ h]

/-- TILE_FETCH_COMPLETE of a record that fails, for the fetch that the job in flight waits for (R139, R142). -/
theorem tileFetchComplete_fails {s : State} {j : Job} {it : DrawItem} {r : TileRequest} {noise : List Byte}
    (h : s.fetchingFor j it r) (hf : s.chart.fetched r.tile noise = none) :
    exec (.tileFetchComplete noise) s = .next (
      let e := s.failFetch r.tile
      let u := e.1.setChart { e.1.chart with port := none }
      match e.2 with
      | .goesOn a => (u.settle j it a).afterFetch
      | .poisoned => (u.discardJob j r.tile).afterFetch) := by
  obtain ⟨h1, h2, h3, h4, h5, h6, h7⟩ := h
  have hr : s.runJob = s := runJob_fetching h1 (by simp [h2])
  have hw : s.waitingFetch = some (j, it, r) := by simp [State.waitingFetch, h1, h2, h3, h4]
  have he : s.endFetch r noise = s.failFetch r.tile := by simp [State.endFetch, h6, h7, hf]
  change Host.Outcome.next _ = _
  rw [hr]
  simp only [hw, h5, he] <;> rfl

end Sys2Proof.Machine
end

