-- ==== Sys2Proof/Laws/Header.lean ====
section
/-! SUPPORT. The header code: what inverting one position does to a header word's bits, its syndrome and its parity, and what that
makes of its decoding. -/

namespace Sys2Proof.Machine

/-- Inverting a position changes the bit there and no other. -/
theorem headerBit_invert (w : HeaderWord) {p q : Nat} (hp : p < 32) (hq : q < 32) :
    headerBit (invertPosition w p) q = (headerBit w q ^^ decide (p = q)) := by
  unfold headerBit invertPosition
  rw [BitVec.getMsbD_xor]
  congr 1
  rw [BitVec.getMsbD_eq_getLsbD, BitVec.getLsbD_twoPow]
  by_cases h : p = q
  · subst h; simp; omega
  · simp [h, hq]; omega

theorem invert_invert (w : HeaderWord) (p : Nat) : invertPosition (invertPosition w p) p = w := by
  unfold invertPosition
  rw [BitVec.xor_assoc, BitVec.xor_self, BitVec.xor_zero]

theorem invert_comm (w : HeaderWord) (p q : Nat) :
    invertPosition (invertPosition w p) q = invertPosition (invertPosition w q) p := by
  unfold invertPosition
  rw [BitVec.xor_assoc, BitVec.xor_assoc, BitVec.xor_comm (BitVec.twoPow 32 (31 - p))]

/-- The syndrome over a list of positions, from a start value. -/
def syndromeOver (w : HeaderWord) (l : List Nat) (start : Nat) : Nat :=
  l.foldl (fun acc p => if headerBit w p then acc ^^^ p else acc) start

theorem syndromeOver_start (w : HeaderWord) (l : List Nat) (a b : Nat) :
    syndromeOver w l (a ^^^ b) = syndromeOver w l a ^^^ b := by
  induction l generalizing a with
  | nil => rfl
  | cons p rest ih =>
    unfold syndromeOver at ih ⊢
    simp only [List.foldl_cons]
    split
    · rw [show a ^^^ b ^^^ p = (a ^^^ p) ^^^ b by rw [Nat.xor_assoc, Nat.xor_comm b p, ← Nat.xor_assoc], ih]
    · rw [ih]

theorem syndromeOver_invert (w : HeaderWord) {p : Nat} (hp : p < 32) (l : List Nat) (hl : ∀ q ∈ l, q < 32)
    (hn : l.Nodup) (start : Nat) :
    syndromeOver (invertPosition w p) l start = syndromeOver w l start ^^^ (if p ∈ l then p else 0) := by
  induction l generalizing start with
  | nil => simp [syndromeOver]
  | cons q rest ih =>
    obtain ⟨hq, hr⟩ := List.nodup_cons.1 hn
    have ih' := fun a => ih (fun x hx => hl x (List.mem_cons_of_mem _ hx)) hr a
    have hq32 : q < 32 := hl q (by simp)
    have step : ∀ (v : HeaderWord) (a : Nat),
        syndromeOver v (q :: rest) a = syndromeOver v rest (if headerBit v q then a ^^^ q else a) := fun _ _ => rfl
    rw [step, step, ih', headerBit_invert w hp hq32]
    by_cases h : p = q
    · subst h
      simp only [List.mem_cons, true_or, if_true, hq, if_false, Nat.xor_zero]
      cases headerBit w p
      · simp only [decide_true, Bool.false_xor, if_true, Bool.false_eq_true, if_false]
        exact syndromeOver_start w rest start p
      · simp only [decide_true, Bool.xor_self, Bool.false_eq_true, if_false, if_true]
        rw [syndromeOver_start, Nat.xor_assoc, Nat.xor_self, Nat.xor_zero]
    · simp [h]

/-- Inverting a position changes the syndrome by its number (R160). -/
theorem syndrome_invert (w : HeaderWord) {p : Nat} (hp : p < 32) :
    syndrome (invertPosition w p) = syndrome w ^^^ p := by
  have h := syndromeOver_invert w hp (List.range 32) (fun q hq => List.mem_range.1 hq) List.nodup_range 0
  rw [if_pos (List.mem_range.2 hp)] at h
  exact h

/-- The parity over a list of positions, from a start value. -/
def parityOver (w : HeaderWord) (l : List Nat) (start : Bool) : Bool :=
  l.foldl (fun acc p => acc ^^ headerBit w p) start

theorem parityOver_start (w : HeaderWord) (l : List Nat) (a b : Bool) :
    parityOver w l (a ^^ b) = (parityOver w l a ^^ b) := by
  induction l generalizing a with
  | nil => rfl
  | cons p rest ih =>
    unfold parityOver at ih ⊢
    simp only [List.foldl_cons]
    rw [show (a ^^ b ^^ headerBit w p) = ((a ^^ headerBit w p) ^^ b) by cases a <;> cases b <;> cases headerBit w p <;> rfl,
      ih]

theorem parityOver_invert (w : HeaderWord) {p : Nat} (hp : p < 32) (l : List Nat) (hl : ∀ q ∈ l, q < 32)
    (hn : l.Nodup) (start : Bool) :
    parityOver (invertPosition w p) l start = (parityOver w l start ^^ decide (p ∈ l)) := by
  induction l generalizing start with
  | nil => simp [parityOver]
  | cons q rest ih =>
    obtain ⟨hq, hr⟩ := List.nodup_cons.1 hn
    have ih' := fun a => ih (fun x hx => hl x (List.mem_cons_of_mem _ hx)) hr a
    have step : ∀ (v : HeaderWord) (a : Bool), parityOver v (q :: rest) a = parityOver v rest (a ^^ headerBit v q) :=
      fun _ _ => rfl
    rw [step, step, ih', headerBit_invert w hp (hl q (by simp))]
    by_cases h : p = q
    · subst h
      rw [show (start ^^ (headerBit w p ^^ decide (p = p))) = ((start ^^ headerBit w p) ^^ true) by simp,
        parityOver_start]
      simp [hq]
    · simp [h]

/-- Inverting a position changes the parity (R160). -/
theorem parityOdd_invert (w : HeaderWord) {p : Nat} (hp : p < 32) : parityOdd (invertPosition w p) = !parityOdd w := by
  have h := parityOver_invert w hp (List.range 32) (fun q hq => List.mem_range.1 hq) List.nodup_range false
  rw [decide_eq_true (List.mem_range.2 hp)] at h
  simpa [parityOdd, parityOver] using h

/-- A header word of even parity and syndrome 0 decodes as good; with one position inverted, as itself corrected; with two, as lost
(R160). -/
theorem decode_errors {w : HeaderWord} (he : parityOdd w = false) (hs : syndrome w = 0) :
    decodeHeader w = .good w ∧ (∀ p, p < 32 → decodeHeader (invertPosition w p) = .corrected w) ∧
      ∀ p q, p < 32 → q < 32 → p ≠ q → decodeHeader (invertPosition (invertPosition w p) q) = .lost := by
  refine ⟨by simp [decodeHeader, he, hs], ?_, ?_⟩
  · intro p hp
    simp [decodeHeader, parityOdd_invert w hp, he, syndrome_invert w hp, hs, invert_invert]
  · intro p q hp hq hn
    have h : p ^^^ q ≠ 0 := fun e => hn (Nat.xor_eq_zero_iff.1 e)
    simp [decodeHeader, parityOdd_invert _ hq, parityOdd_invert w hp, he, syndrome_invert _ hq, syndrome_invert w hp, hs, h]

end Sys2Proof.Machine
end

