-- ==== Sys2Proof/Laws/Notices.lean ====
section
/-! SUPPORT. The notices of one frame start: how they are ordered and queued, what each part of the frame start posts, and what a timeline
that handles it ahead of the rest does. -/

namespace Sys2Proof.Machine

/-! ### Order and queue (log 7) -/

/-- Arranging postings loses none and adds none. -/
theorem arrange_perm (order : List FramePart) (ps : List Posting) : (arrange order ps).Perm ps := by
  induction order generalizing ps with
  | nil => exact List.Perm.refl _
  | cons g rest ih =>
    unfold arrange
    exact (List.Perm.append_left _ (ih _)).trans (List.filter_append_perm (fun p : Posting => p.part == g) ps)

/-- Arranging postings keeps the order within each part. -/
theorem arrange_filter (order : List FramePart) (ps : List Posting) (h : FramePart) :
    (arrange order ps).filter (fun x => x.part == h) = ps.filter (fun x => x.part == h) := by
  induction order generalizing ps with
  | nil => rfl
  | cons g rest ih =>
    unfold arrange
    rw [List.filter_append, ih, List.filter_filter, List.filter_filter]
    by_cases e : g = h
    · subst e
      have z : ps.filter (fun a => a.part == g && a.part != g) = [] := by simp [List.filter_eq_nil_iff]
      simp [z]
    · have z : ps.filter (fun a => a.part == h && a.part == g) = [] := by
        simp only [List.filter_eq_nil_iff]
        intro a _
        simp only [Bool.and_eq_true, beq_iff_eq, not_and]
        intro e1 e2
        exact e (e2.symm.trans e1)
      rw [z, List.nil_append]
      refine List.filter_congr fun a _ => ?_
      by_cases e1 : a.part = h
      · have e2 : ¬h = g := fun x => e x.symm
        simp [e1, e2]
      · simp [e1]

/-- Queuing postings queues each on its link, in their order, with the frame number then current (R6, R167). -/
theorem queueAll_port (s : State) (ps : List Posting) (l : Link) :
    (s.queueAll ps).port l = (s.port l).afterPosts l s.timing.frame ps := by
  induction ps generalizing s with
  | nil => rfl
  | cons x rest ih =>
    change ((s.notify x.link x.notice).queueAll rest).port l = _
    rw [ih, (frame_notify s _ _).timing_eq (by simp) (by simp)]
    by_cases e : x.link = l
    · subst e; simp [Port.afterPosts, State.notify]
    · have e' : l ≠ x.link := fun h => e h.symm
      simp [Port.afterPosts, e, State.notify, State.mapPort_port_other s e']

/-! ### The postings of one part -/

/-- The notices of part `h` among postings. -/
def noticesOf (h : FramePart) (ps : List Posting) : List (Link × Notice) :=
  (ps.filter (fun x => x.part == h)).map (fun x => (x.link, x.notice))

section Of

variable {g h : FramePart}

@[simp] theorem noticesOf_nil : noticesOf h [] = [] := rfl
theorem noticesOf_append (a b : List Posting) : noticesOf h (a ++ b) = noticesOf h a ++ noticesOf h b := by
  simp [noticesOf]
theorem noticesOf_flatMap {α : Type} (f : α → List Posting) (l : List α) :
    noticesOf h (l.flatMap f) = l.flatMap (fun a => noticesOf h (f a)) := by
  induction l with
  | nil => rfl
  | cons a r ih => simp [List.flatMap_cons, noticesOf_append, ih]
theorem noticesOf_same (l : Link) (ns : List Notice) : noticesOf h (postings h l ns) = ns.map (fun n => (l, n)) := by
  simp [noticesOf, postings, List.filter_map, Function.comp_def]
theorem noticesOf_other (e : g ≠ h) (l : Link) (ns : List Notice) : noticesOf h (postings g l ns) = [] := by
  simp [noticesOf, postings, List.filter_map, Function.comp_def, e]

end Of

/-- Of four blocks' postings only one block's count where the other three post nothing. -/
theorem flatMap_one {β : Type} (f : Fin 4 → List β) (n : Fin 4) (h : ∀ m, m ≠ n → f m = []) :
    (List.finRange 4).flatMap f = f n := by
  have e : List.finRange 4 = [0, 1, 2, 3] := by decide
  rw [e]
  match n with
  | 0 => simp [h 1 (by decide), h 2 (by decide), h 3 (by decide)]
  | 1 => simp [h 0 (by decide), h 2 (by decide), h 3 (by decide)]
  | 2 => simp [h 1 (by decide), h 0 (by decide), h 3 (by decide)]
  | 3 => simp [h 1 (by decide), h 2 (by decide), h 0 (by decide)]

section Parts

variable (s : State) (h : FramePart)

theorem noticesOf_timing :
    noticesOf h s.timingPosts =
      if h = .reference ∧ s.timing.holdoverEnds = true ∧ s.isAhead .reference = false then
        [(.forecast, .reference .free), (.studio, .reference .free)]
      else [] := by
  unfold State.timingPosts
  by_cases e : h = .reference
  · subst e
    cases s.timing.holdoverEnds <;> cases s.isAhead .reference <;> simp [noticesOf_append, noticesOf_same]
  · have e' : FramePart.reference ≠ h := fun x => e x.symm
    split <;> simp [noticesOf_append, noticesOf_other e', e]

theorem noticesOf_timelines_same (n : Fin 4) :
    noticesOf (.timeline n) s.timelinePosts =
      if s.isAhead (.timeline n) then [] else (s.timelines[n].frameNotice n).map (fun x => (.studio, x)) := by
  unfold State.timelinePosts
  rw [noticesOf_flatMap, flatMap_one _ n]
  · split
    · rfl
    · exact noticesOf_same _ _
  · intro m hm
    split
    · rfl
    · exact noticesOf_other (by simpa using hm) _ _

theorem noticesOf_timelines_other (e : ∀ n, h ≠ .timeline n) : noticesOf h s.timelinePosts = [] := by
  unfold State.timelinePosts
  rw [noticesOf_flatMap, List.flatMap_eq_nil_iff]
  intro m _
  split
  · rfl
  · exact noticesOf_other (fun x => e m x.symm) _ _

theorem noticesOf_memo (d : MemoDir) :
    noticesOf h (s.memoPosts d) =
      if h = .memo d ∧ memoExpires (s.memoSlot d) = true ∧ s.isAhead (.memo d) = false then
        [(slotPoster d, .memoExpired d)]
      else [] := by
  unfold State.memoPosts
  by_cases e : h = .memo d
  · subst e
    cases memoExpires (s.memoSlot d) <;> cases s.isAhead (.memo d) <;> simp [noticesOf_same]
  · have e' : FramePart.memo d ≠ h := fun x => e x.symm
    split <;> simp [noticesOf_other e', e]

theorem noticesOf_output (before after : OutputState) :
    noticesOf h (outputPosts before after) =
      if h = .output ∧ after ≠ before then [(.studio, .outputState after)] else [] := by
  unfold outputPosts
  by_cases e : h = .output
  · subst e
    by_cases c : after = before <;> simp [c, noticesOf_same]
  · have e' : FramePart.output ≠ h := fun x => e x.symm
    split <;> simp [noticesOf_other e', e]

theorem noticesOf_flips_same (f : Fin 4) :
    noticesOf (.flip f) ((List.finRange 4).flatMap s.flipPosts) =
      if s.flips f (fun t => s.timelines[t].shown.boundary) && !s.isAhead (.flip f) then
        (s.store.sets[f].liveNotice f).map (fun x => (.forecast, x))
      else [] := by
  rw [noticesOf_flatMap, flatMap_one _ f]
  · unfold State.flipPosts
    split
    · exact noticesOf_same _ _
    · rfl
  · intro m hm
    unfold State.flipPosts
    split
    · exact noticesOf_other (by simpa using hm) _ _
    · rfl

theorem noticesOf_flips_other (e : ∀ f, h ≠ .flip f) : noticesOf h ((List.finRange 4).flatMap s.flipPosts) = [] := by
  rw [noticesOf_flatMap, List.flatMap_eq_nil_iff]
  intro m _
  unfold State.flipPosts
  split
  · exact noticesOf_other (fun x => e m x.symm) _ _
  · rfl

theorem noticesOf_render (ns : List Notice) :
    noticesOf h (postings .render .studio ns) = if h = .render then ns.map (fun x => (.studio, x)) else [] := by
  by_cases e : h = .render
  · subst e; simp [noticesOf_same]
  · simp [e, noticesOf_other (fun x => e x.symm)]

end Parts

/-! ### What each part of the frame start now due posts -/

/-- Entering a frame start marks the generator's own step alone (log 6). -/
theorem enterFrame_isAhead (s : State) {h : FramePart} (e : h ≠ .generator) : s.enterFrame.isAhead h = s.isAhead h := by
  unfold State.enterFrame
  split
  · rfl
  · simp [State.markAhead, State.isAhead, e]

/-- The frame number once the frame start now due has been entered (R5). -/
theorem enterFrame_frame (s : State) : s.enterFrame.timing.frame = s.dueFrame := by
  unfold State.dueFrame
  by_cases h : s.isAhead .generator = true
  · rw [if_pos h, enterFrame_entered h]
  · rw [if_neg h, enterFrame_timing (by simpa using h)]; simp

/-- Entering a frame start leaves the state of reference and its counts (R12). -/
theorem enterFrame_holdoverEnds (s : State) : s.enterFrame.timing.holdoverEnds = s.timing.holdoverEnds := by
  by_cases h : s.isAhead .generator = true
  · rw [enterFrame_entered h]
  · rw [enterFrame_timing (by simpa using h)]
    have hc : ∀ t : Timing, t.frameStart.holdover = t.holdover := by
      intro t
      have h1 : t.applyNudge.holdover = t.holdover := by
        unfold Timing.applyNudge; split
        · rfl
        · split <;> rfl
      have h2 : t.applyNudge.applyOffset.holdover = t.applyNudge.holdover := by unfold Timing.applyOffset; split <;> rfl
      simp [Timing.frameStart, Timing.beginFrame, h1, h2]
    simp [Timing.holdoverEnds, hc]

section Due

variable (s : State)

theorem partNotices_eq (h : FramePart) :
    s.partNotices h =
      noticesOf h s.enterFrame.timingPosts ++ noticesOf h s.enterFrame.timelinePosts ++
        noticesOf h (s.enterFrame.memoPosts .forecastToStudio) ++ noticesOf h (s.enterFrame.memoPosts .studioToForecast) ++
        noticesOf h (outputPosts s.enterFrame.output.state s.enterFrame.beforeRender.output.state) ++
        noticesOf h ((List.finRange 4).flatMap s.enterFrame.holdoverFrame.timelineFrame.flipPosts) ++
        noticesOf h (postings .render .studio (s.enterFrame.beforeRender.swapFrame.render.lateNotice
          s.enterFrame.beforeRender.render.hasReady s.enterFrame.beforeRender.pages.loaded.isSome)) := by
  change noticesOf h s.enterFrame.framePosts = _
  unfold State.framePosts
  simp only [noticesOf_append]

/-- The end of the holdover count (R12, R13). -/
theorem partNotices_reference :
    s.partNotices .reference =
      if s.timing.holdoverEnds = true ∧ s.isAhead .reference = false then
        [(.forecast, .reference .free), (.studio, .reference .free)]
      else [] := by
  rw [partNotices_eq]
  simp [noticesOf_timing, noticesOf_timelines_other, noticesOf_memo, noticesOf_output, noticesOf_flips_other,
    noticesOf_render, enterFrame_holdoverEnds, enterFrame_isAhead]

/-- The end of a timeline's run (R77). -/
theorem partNotices_timeline (n : Fin 4) :
    s.partNotices (.timeline n) =
      if s.isAhead (.timeline n) then [] else (s.timelines[n].frameNotice n).map (fun x => (.studio, x)) := by
  rw [partNotices_eq]
  simp [noticesOf_timing, noticesOf_timelines_same, noticesOf_memo, noticesOf_output, noticesOf_flips_other,
    noticesOf_render, enterFrame_isAhead, (frame_enterFrame s).timelines_eq (by simp)]

/-- The expiry of a memo (R176). -/
theorem partNotices_memo (d : MemoDir) :
    s.partNotices (.memo d) =
      if memoExpires (s.memoSlot d) = true ∧ s.isAhead (.memo d) = false then [(slotPoster d, .memoExpired d)]
      else [] := by
  have hm : ∀ e, s.enterFrame.memoSlot e = s.memoSlot e := by
    intro e; cases e <;> simp [State.memoSlot, (frame_enterFrame s).memo_eq (by simp)]
  rw [partNotices_eq]
  cases d <;>
    simp [noticesOf_timing, noticesOf_timelines_other, noticesOf_memo, noticesOf_output, noticesOf_flips_other,
      noticesOf_render, enterFrame_isAhead, hm]

/-- A change of output state (R27). -/
theorem partNotices_output :
    s.partNotices .output =
      if s.enterFrame.framed.output.state = s.output.state then []
      else [(.studio, .outputState s.enterFrame.framed.output.state)] := by
  have hs : s.enterFrame.output.state = s.output.state := by
    have h : s.enterFrame.output = { s.output with
      keyEnable := s.enterFrame.output.keyEnable, keyDropAt := s.enterFrame.output.keyDropAt } :=
        frame_enterFrame s .output (by simp)
    rw [h]
  have hf : s.enterFrame.beforeRender.output.state = s.enterFrame.framed.output.state := by
    rw [framed_output, beforeRender_output]
  rw [partNotices_eq]
  by_cases c : s.enterFrame.framed.output.state = s.output.state <;>
    simp [noticesOf_timing, noticesOf_timelines_other, noticesOf_memo, noticesOf_output, noticesOf_flips_other,
      noticesOf_render, hs, hf, c]

/-- The boundary that a timeline gives the flip test at the frame start now due (R58, R78). -/
theorem boundary_timelineFrame (t : Fin 4) : s.timelineFrame.timelines[t].shown.boundary = s.boundaryNow t := by
  rw [timelineFrame_timelines]
  unfold State.boundaryNow
  split <;> rfl

/-- The flip of a field set (R58, R59). -/
theorem partNotices_flip (f : Fin 4) :
    s.partNotices (.flip f) =
      if s.flips f s.boundaryNow && !s.isAhead (.flip f) then (s.store.sets[f].liveNotice f).map (fun x => (.forecast, x))
      else [] := by
  have hu : Frame [.clock, .keyEnable, .timing, .ahead, .timelines] s s.enterFrame.holdoverFrame.timelineFrame :=
    (((frame_enterFrame s).mono (by simp)).trans ((frame_holdoverFrame _).mono (by simp))).trans
      ((frame_timelineFrame _).mono (by simp))
  have hv : Frame [.clock, .timing, .timelines] s.enterFrame s.enterFrame.holdoverFrame.timelineFrame :=
    ((frame_holdoverFrame _).mono (by simp)).trans ((frame_timelineFrame _).mono (by simp))
  have ha : ∀ h, h ≠ FramePart.generator → s.enterFrame.holdoverFrame.timelineFrame.isAhead h = s.isAhead h := by
    intro h e
    rw [← enterFrame_isAhead s e]
    unfold State.isAhead
    rw [hv.ahead_eq (by simp)]
  have hb : (fun t => s.enterFrame.holdoverFrame.timelineFrame.timelines[t].shown.boundary) = s.boundaryNow := by
    funext t
    have ht : s.enterFrame.holdoverFrame.timelines = s.timelines := by
      rw [(frame_holdoverFrame _).timelines_eq (by simp), (frame_enterFrame s).timelines_eq (by simp)]
    have hr : ∀ h, h ≠ FramePart.generator → s.enterFrame.holdoverFrame.isAhead h = s.isAhead h := by
      intro h e
      rw [← enterFrame_isAhead s e]
      unfold State.isAhead
      rw [(frame_holdoverFrame _).ahead_eq (by simp)]
    rw [boundary_timelineFrame]
    simp [State.boundaryNow, hr, ht]
  rw [partNotices_eq]
  simp [noticesOf_timing, noticesOf_timelines_other, noticesOf_memo, noticesOf_output, noticesOf_flips_same,
    noticesOf_render, ha, State.flips, hu.store_eq, hu.pages_eq, hu.render_eq, ← hb]

/-- The late renderer (R112). -/
theorem partNotices_render :
    s.partNotices .render =
      (s.render.swap.lateNotice s.render.hasReady s.pages.loaded.isSome).map (fun x => (.studio, x)) := by
  have hr : s.enterFrame.beforeRender.render = s.render := by
    rw [beforeRender_render, (frame_enterFrame s).render_eq (by simp)]
  have hl : s.enterFrame.beforeRender.pages.loaded = s.pages.loaded := by
    rw [beforeRender_pages, (frame_enterFrame s).pages_eq (by simp)]
    split <;> rfl
  rw [partNotices_eq]
  simp [noticesOf_timing, noticesOf_timelines_other, noticesOf_memo, noticesOf_output, noticesOf_flips_other,
    noticesOf_render, swapFrame_render, hr, hl]

end Due

/-! ### Timelines that handle a frame start ahead of the rest (log 6) -/

/-- Queuing notices one by one on a link, each with the frame number current (R167). -/
theorem notifyAll_port (s : State) (l : Link) (ns : List Notice) :
    (s.notifyAll l ns).port l = ns.foldl (fun q x => Port.notify (x.packet s.timing.frame) q) (s.port l) := by
  induction ns generalizing s with
  | nil => rfl
  | cons x rest ih =>
    change ((s.notify l x).notifyAll l rest).port l = _
    rw [ih, (frame_notify s l x).timing_eq (by simp) (by simp)]
    simp [State.notify]

/-- One timeline that handles the frame start ahead of the rest handles it once; the other timelines and marks stay. -/
theorem timelineAhead_timelines (s : State) (n m : Fin 4) :
    (s.timelineAhead n).timelines[m] =
      if m = n ∧ s.isAhead (.timeline n) = false then s.timelines[m].frame else s.timelines[m] := by
  unfold State.timelineAhead
  by_cases h : s.isAhead (.timeline n) = true
  · simp [h]
  · rw [if_neg h]
    unfold State.handleTimeline
    rw [(frame_notifyAll _ _ _).timelines_eq (by simp), (frame_markAhead _ _).timelines_eq (by simp)]
    by_cases e : m = n
    · subst e; simp [State.setTimeline, h]
    · have e' : n.val ≠ m.val := fun x => e (Fin.ext x.symm)
      simp [State.setTimeline, e, e']

theorem timelineAhead_isAhead (s : State) (n : Fin 4) (h : FramePart) :
    (s.timelineAhead n).isAhead h = (decide (h = .timeline n) || s.isAhead h) := by
  unfold State.timelineAhead
  by_cases e : s.isAhead (.timeline n) = true
  · rw [if_pos e]
    by_cases x : h = .timeline n
    · subst x; simp [e]
    · simp [x]
  · rw [if_neg e]
    unfold State.handleTimeline State.isAhead
    rw [(frame_notifyAll _ _ _).ahead_eq (by simp)]
    by_cases x : h = .timeline n <;> simp [State.markAhead, x]

/-- A list of timelines that handle the frame start ahead of the rest: each handles it once, and is marked. -/
theorem timelinesAhead_timelines (s : State) (ts : List (Fin 4)) (m : Fin 4) :
    (ts.foldl State.timelineAhead s).timelines[m] =
      if m ∈ ts ∧ s.isAhead (.timeline m) = false then s.timelines[m].frame else s.timelines[m] := by
  induction ts generalizing s with
  | nil => simp
  | cons n rest ih =>
    rw [List.foldl_cons, ih, timelineAhead_timelines, timelineAhead_isAhead]
    by_cases e : m = n
    · subst e; cases h : s.isAhead (.timeline m) <;> simp
    · simp [e]

theorem timelinesAhead_isAhead (s : State) (ts : List (Fin 4)) (h : FramePart) :
    (ts.foldl State.timelineAhead s).isAhead h = (ts.any (fun n => decide (h = .timeline n)) || s.isAhead h) := by
  induction ts generalizing s with
  | nil => simp
  | cons n rest ih =>
    rw [List.foldl_cons, ih, timelineAhead_isAhead, List.any_cons]
    cases decide (h = FramePart.timeline n) <;> simp

/-- The timelines' notices go to the studio link, those of each timeline that has not handled the frame start already (R77). -/
theorem timelinesAhead_studio (s : State) (ts : List (Fin 4)) (h : ts.Nodup) :
    (ts.foldl State.timelineAhead s).studio =
      (ts.flatMap fun n => if s.isAhead (.timeline n) then [] else s.timelines[n].frameNotice n).foldl
        (fun q x => Port.notify (x.packet s.timing.frame) q) s.studio := by
  induction ts generalizing s with
  | nil => rfl
  | cons n rest ih =>
    have hn : n ∉ rest := (List.nodup_cons.1 h).1
    rw [List.foldl_cons, ih _ (List.nodup_cons.1 h).2, List.flatMap_cons, List.foldl_append,
      (frame_timelineAhead s n).timing_eq (by simp) (by simp)]
    have hr : (rest.flatMap fun m => if (s.timelineAhead n).isAhead (.timeline m) then []
          else (s.timelineAhead n).timelines[m].frameNotice m) =
        rest.flatMap fun m => if s.isAhead (.timeline m) then [] else s.timelines[m].frameNotice m := by
      refine List.flatMap_congr fun m hm => ?_
      have e : m ≠ n := fun x => hn (x ▸ hm)
      rw [timelineAhead_isAhead, timelineAhead_timelines]
      simp [e]
    rw [hr]
    congr 1
    unfold State.timelineAhead
    split
    · rfl
    · unfold State.handleTimeline
      have hs := notifyAll_port ((s.setTimeline n s.timelines[n].frame).markAhead (.timeline n)) .studio
        (s.timelines[n].frameNotice n)
      exact hs

/-- The timelines that a flip test reads, each once. -/
theorem flipTimelines_nodup (t : PageTable) (f : Fin 4) : (t.flipTimelines f).Nodup := by
  unfold PageTable.flipTimelines
  split
  · exact List.nodup_nil
  · exact (List.nodup_finRange 4).filter _

/-- A flip test reads the timelines that the data layers of the LOADED page name beside the field set (R58). -/
theorem timelinesAtBoundary_iff (t : PageTable) (f : Fin 4) (boundary : Fin 4 → Bool) :
    t.timelinesAtBoundary f boundary = true ↔
      ∀ r, t.loadedRecord = some r → ∀ l ∈ r.layers, l.fieldSet = some f → ∀ n, l.timeline = some n → boundary n = true := by
  unfold PageTable.timelinesAtBoundary PageTable.flipTimelines
  cases t.loadedRecord with
  | none => simp
  | some r =>
    simp only [List.all_eq_true, List.mem_filter, List.mem_finRange, true_and, List.any_eq_true, Bool.and_eq_true,
      beq_iff_eq, Option.some.injEq]
    constructor
    · intro h r' e l hl hf n hn
      exact h n ⟨l, e ▸ hl, hf, hn⟩
    · rintro h n ⟨l, hl, hf, hn⟩
      exact h r rfl l hl hf n hn

/-- FLIP of a field set whose conditions hold: the timelines that its test reads have handled the frame start, and stand at the
boundary that it found (R58, R78). -/
theorem timelinesBeforeFlip_boundary (s : State) (f m : Fin 4) (h : s.pages.timelinesAtBoundary f s.boundaryNow = true)
    (hm : m ∈ s.pages.flipTimelines f) : (s.enterFrame.timelinesBeforeFlip f).timelines[m].shown.boundary = true := by
  have hb : s.boundaryNow m = true := List.all_eq_true.1 h m hm
  unfold State.timelinesBeforeFlip
  rw [timelinesAhead_timelines, (frame_enterFrame s).pages_eq (by simp), enterFrame_isAhead s (by simp),
    (frame_enterFrame s).timelines_eq (by simp)]
  unfold State.boundaryNow at hb
  cases e : s.isAhead (.timeline m) <;> simp_all

/-- What a frame start leaves in a block goes without notices: the ports stand until they are queued. -/
theorem framed_port (s : State) (l : Link) : s.framed.port l = s.port l := by
  rw [(frame_framed_after s).port_eq l (by simp), (frame_beforeRender s).port_eq l (by simp)]

/-- The blocks other than the generator handle a frame start under its number (R5). -/
theorem framed_frame (s : State) : s.framed.timing.frame = s.timing.frame := by
  rw [framed_timing, holdoverFrame_timing]
  split
  · rfl
  · rw [Timing.holdoverFrame_eq]

/-- FRAME_START queues its notices on each link with the number of the frame that begins (R5, R6). -/
theorem frameStart_ports (order : List FramePart) (s : State) (l : Link) :
    (s.enterFrame.framed.queueAll (arrange order s.enterFrame.framePosts)).port l =
      (s.port l).afterPosts l s.dueFrame (arrange order s.enterFrame.framePosts) := by
  rw [queueAll_port, framed_frame, enterFrame_frame, framed_port, (frame_enterFrame s).port_eq l (by simp)]

end Sys2Proof.Machine
end

