-- ==== Sys2Proof/Laws/PerInstr.lean ====
section
/-! SUPPORT. The family WellFormedness: what the check of a command says of its operands, constructor by constructor. -/

namespace Sys2Proof.Laws.WellFormedness

/-- A command that the check accepts carries, where it carries a packet, a payload within R161's limit whose CRC word is 0 where it
is empty; and the order of a frame start's notices names no part twice. -/
def Statement (i : Instr) : Prop :=
  i.wf = true →
    i.operandsOk = true ∧
      ∀ p, i.packet? = some p → p.payload.length ≤ maxPayload ∧ (p.payload = [] → p.crc = 0)

theorem holds (i : Instr) : Statement i := by
  intro h
  unfold Instr.wf at h
  rw [Bool.and_eq_true] at h
  refine ⟨h.1, fun p hp => ?_⟩
  rw [hp] at h
  obtain ⟨-, h⟩ := h
  unfold Packet.wf at h
  rw [Bool.and_eq_true, decide_eq_true_eq] at h
  refine ⟨h.1, fun he => ?_⟩
  have := h.2
  rw [he] at this
  simpa using this

theorem powerOnReset (rateHigh : Bool) : Statement (.powerOnReset rateHigh) := holds _
theorem frameStart (order : List FramePart) : Statement (.frameStart order) := holds _
theorem referencePulse (time : Nat) : Statement (.referencePulse time) := holds _
theorem decisionInstant : Statement (.decisionInstant) := holds _
theorem holdoverExpiry : Statement (.holdoverExpiry) := holds _
theorem nudgeApply : Statement (.nudgeApply) := holds _
theorem offsetTakesEffect : Statement (.offsetTakesEffect) := holds _
theorem pendingCut : Statement (.pendingCut) := holds _
theorem panicActs : Statement (.panicActs) := holds _
theorem flip (f : Fin 4) : Statement (.flip f) := holds _
theorem timelineCommit (t : Fin 4) : Statement (.timelineCommit t) := holds _
theorem blinkCycleEnd (b : Fin 4) : Statement (.blinkCycleEnd b) := holds _
theorem memoExpiry (d : MemoDir) : Statement (.memoExpiry d) := holds _
theorem tileFetchComplete (noise : List Byte) : Statement (.tileFetchComplete noise) := holds _
theorem jobComplete : Statement (.jobComplete) := holds _
theorem deferredWriteApply : Statement (.deferredWriteApply) := holds _
theorem cacheRestoreApply (l : Link) : Statement (.cacheRestoreApply l) := holds _
theorem flashReadComplete (noise : List Byte) : Statement (.flashReadComplete noise) := holds _
theorem flashProgramComplete (fails : List Byte) : Statement (.flashProgramComplete fails) := holds _
theorem flashEraseComplete : Statement (.flashEraseComplete) := holds _
theorem scanComplete (noise : List Byte) : Statement (.scanComplete noise) := holds _
theorem transmitEnd (l : Link) : Statement (.transmitEnd l) := holds _
theorem lineBreak (l : Link) : Statement (.lineBreak l) := holds _
theorem lineBreakEnd (l : Link) : Statement (.lineBreakEnd l) := holds _
theorem framingError (l : Link) : Statement (.framingError l) := holds _
theorem receiveTimeout (l : Link) : Statement (.receiveTimeout l) := holds _
theorem headerReceived (l : Link) (header : HeaderWord) : Statement (.headerReceived l header) := holds _
theorem unknownPacket (kind : BitVec 7) (p : Packet) : Statement (.unknownPacket kind p) := holds _
theorem status (p : Packet) : Statement (.status p) := holds _
theorem echo (p : Packet) : Statement (.echo p) := holds _
theorem faultRead (p : Packet) : Statement (.faultRead p) := holds _
theorem cacheRestore (p : Packet) : Statement (.cacheRestore p) := holds _
theorem memoPost (p : Packet) : Statement (.memoPost p) := holds _
theorem memoTake (p : Packet) : Statement (.memoTake p) := holds _
theorem memoWithdraw (p : Packet) : Statement (.memoWithdraw p) := holds _
theorem gridDefine (p : Packet) : Statement (.gridDefine p) := holds _
theorem gridRows (p : Packet) : Statement (.gridRows p) := holds _
theorem gridPublish (p : Packet) : Statement (.gridPublish p) := holds _
theorem gridStatus (p : Packet) : Statement (.gridStatus p) := holds _
theorem listWrite (p : Packet) : Statement (.listWrite p) := holds _
theorem symbolWrite (p : Packet) : Statement (.symbolWrite p) := holds _
theorem flashRead (p : Packet) : Statement (.flashRead p) := holds _
theorem flashProgram (p : Packet) : Statement (.flashProgram p) := holds _
theorem flashErase (p : Packet) : Statement (.flashErase p) := holds _
theorem chartRescan (p : Packet) : Statement (.chartRescan p) := holds _
theorem pageDefine (p : Packet) : Statement (.pageDefine p) := holds _
theorem pageDelete (p : Packet) : Statement (.pageDelete p) := holds _
theorem pageRead (p : Packet) : Statement (.pageRead p) := holds _
theorem load (p : Packet) : Statement (.load p) := holds _
theorem unload (p : Packet) : Statement (.unload p) := holds _
theorem take (p : Packet) : Statement (.take p) := holds _
theorem clear (p : Packet) : Statement (.clear p) := holds _
theorem panic (p : Packet) : Statement (.panic p) := holds _
theorem paletteWrite (p : Packet) : Statement (.paletteWrite p) := holds _
theorem timelineSet (p : Packet) : Statement (.timelineSet p) := holds _
theorem timelineSteps (p : Packet) : Statement (.timelineSteps p) := holds _
theorem timelineRun (p : Packet) : Statement (.timelineRun p) := holds _
theorem timelineStop (p : Packet) : Statement (.timelineStop p) := holds _
theorem timelineJump (p : Packet) : Statement (.timelineJump p) := holds _
theorem timelineClear (p : Packet) : Statement (.timelineClear p) := holds _
theorem blinkSet (p : Packet) : Statement (.blinkSet p) := holds _
theorem offset (p : Packet) : Statement (.offset p) := holds _
theorem nudge (p : Packet) : Statement (.nudge p) := holds _
theorem startByte (l : Link) : Statement (.startByte l) := holds _
theorem cacheHitParityError (tile : Fin 256) : Statement (.cacheHitParityError tile) := holds _

end Sys2Proof.Laws.WellFormedness
end

