-- ==== Sys2Proof/Tests/Slice0.lean ====
section
/-! SUPPORT. The model's own tests: the smoke of the checks, the spec's worked figures, one step of each command on a small state, and
for each statement with hypotheses a state and operands that meet them. -/

namespace Sys2Proof.Tests

open Sys2Proof.Machine

set_option maxRecDepth 20000
set_option Elab.async false

/-! ### Helpers -/

/-- A packet with its CRC, tag 5, instant 0. -/
def mk (l : Link) (arg : Nat) (payload : List Nat) : Packet :=
  let b := payload.map (BitVec.ofNat 8)
  ⟨l, 5, BitVec.ofNat 4 arg, b, if b.isEmpty then 0 else crc16 b, 0⟩

/-- A packet on the forecast link. -/
def pf (arg : Nat) (payload : List Nat) : Packet := mk .forecast arg payload

/-- A packet on the studio link. -/
def ps (arg : Nat) (payload : List Nat) : Packet := mk .studio arg payload

/-- The state after one command. -/
def after (c : Instr) (s : State) : State :=
  match exec c s with
  | .next t => t
  | .fault _ => State.reset
  | .refused _ => State.reset

/-- The payload of the packet in transmission on a link. -/
def sent (l : Link) (s : State) : List Byte :=
  match (s.port l).tx with
  | none => []
  | some p => p.payload

/-- The block after reset with no flash operation in flight. -/
def idle : State := { State.reset with chart := { Chart.reset with op := none, state := .valid } }

/-- The spec's page 2 (section 3.6). -/
def coast : Viewport := ⟨16384, 20480, 12288, 6912, 160, 90, 1600, 900⟩

/-- A small page: 16 by 16 pixels at a scale of 1, with the given layers. -/
def small (layers : List Layer) : PageRecord := ⟨⟨0, 0, 16, 16, 0, 0, 16, 16⟩, 3, layers⟩

/-- A COAST layer. -/
def coastLayer : CoastLayer := ⟨4, 5, 1⟩

/-- Pages 2 and 3 have content, and page 2 is LOADED. -/
def paged : State :=
  { idle with pages := ⟨((Vector.replicate 16 none).set 2 (some (small []))).set 3 (some (small [.coast coastLayer])),
      some 2, none⟩ }

/-- As `paged`, with page 3 OUTGOING and the output ON_AIR. -/
def leaving : State :=
  { paged with
    pages := { paged.pages with outgoing := some 3 }
    output := { OutputStage.reset with state := .onAir, acc := 65280, slope := 1306 } }

/-- A job that draws a page into buffer A. -/
def aJob (layers : List Layer) (drawn : Nat) (fetching : Option Nat) : Job where
  buffer := .a
  page := 2
  record := small layers
  frame := 1
  timelines := Vector.replicate 4 ⟨0, 0, false, true⟩
  phases := Vector.replicate 4 true
  captured := Vector.replicate 4 none
  announce := true
  poisoned := false
  contentStands := true
  drawn := drawn
  fetching := fetching

/-- Page 2 is LOADED and in front with the key enable set, the output is DARK, and a nudge of -15 moves the end of the frame to a
mid-line instant. -/
def keyed : State :=
  { paged with
    output := { OutputStage.reset with keyEnable := true }
    render := { Render.reset with bufferA := ⟨.front, some 2, []⟩ }
    timing := { Timing.reset .fps50 with now := 2969980, nudge := some ⟨-15, 0, false, none⟩ } }

/-- A directory in which every tile has a record. -/
def directory : List DirEntry := List.replicate 256 ⟨1542, 2053, false⟩

/-- The state `paged` with a job in flight and a VALID store. -/
def busy (layers : List Layer) (drawn : Nat) (fetching : Option Nat) : State :=
  { paged with
    render := { Render.reset with
      bufferA := ⟨.rendering, none, []⟩
      job := some (aJob layers drawn fetching)
      newlyLoaded := some 2 }
    chart := { idle.chart with directory := some directory, port := fetching.map fun _ => .fetch } }

/-- A WIND field set of 2 columns, 2 rows and 1 slot, its first bank staging with the given map. -/
def windSet (role : BankRole) (written : List Nat) : FieldSet :=
  ⟨some ⟨.wind, 0, 0, 16, 2, 2, 1⟩, ⟨role, [], written⟩, Bank.cleared []⟩

/-- The state `idle` with field set 1 as given. -/
def fielded (f : FieldSet) : State := idle.setFieldSet 1 f

/-- The state `idle` with a timeline 1 as given. -/
def timed (v : Timeline) : State := idle.setTimeline 1 v

/-- A timeline one frame start before its commit. -/
def committing : Timeline := { Timeline.reset with state := .stepping, s := 5, q := 192, k := 15, period := 16, rate := 3, counter := 2, tf := 20 }

/-- The state `idle` with one port replaced. -/
def ported (l : Link) (p : Port) : State := idle.setPort l p

/-- A command record in a slot. -/
def held (k : Kind) : CmdRecord := ⟨k, 5, 0, []⟩

/-- A notice and a reply in a queue. -/
def aNotice : TxPacket := (Notice.memoExpired .forecastToStudio).packet 1
def aReply : TxPacket := ⟨false, 0x02, 1, 0, [0, 0]⟩

/-! ### The checks of a command refuse an ill-formed term -/

theorem test_wf_accepts : (Instr.echo (pf 0 [1, 2, 3])).wf = true := by decide +kernel
theorem test_wf_long_payload : (Instr.echo ⟨.forecast, 0, 0, List.replicate 1025 0, 0, 0⟩).wf = false := by
  decide +kernel
theorem test_wf_crc_without_payload : (Instr.status ⟨.forecast, 0, 0, [], 1, 0⟩).wf = false := by decide +kernel
theorem test_wf_order_repeats : (Instr.frameStart [.output, .render, .output]).wf = false := by decide +kernel
theorem test_wf_fetch_noise : (Instr.tileFetchComplete (List.replicate 6214 0)).wf = false := by decide +kernel
theorem test_wf_read_noise : (Instr.flashReadComplete (List.replicate 257 0)).wf = false := by decide +kernel
theorem test_wf_program_fails : (Instr.flashProgramComplete (List.replicate 257 0)).wf = false := by decide +kernel
theorem test_wf_scan_noise : (Instr.scanComplete (List.replicate 1543 0)).wf = false := by decide +kernel
theorem test_wf_known_kind : (Instr.unknownPacket 0x23 (pf 0 [])).wf = false := by decide +kernel

/-- The codes that no command has are the codes that the block does not know. -/
theorem test_command_codes : commandCodes = Kind.all.map Kind.code := by decide +kernel

theorem test_no_word_spells_a_command : decodeTableWord 8 0 = none ∧ decodeTableWord 32 0xC6 = none := by
  decide +kernel

/-! ### The spec's worked figures -/

/-- R163's two examples. -/
theorem test_crc : crc16 [0] = 0xE1F0 ∧ crc16 [0, 0] = 0x1D0F := by decide +kernel

/-- A header for ECHO, tag 1, 1022 bytes: encoded good, and corrected from an error in position 0, 20 and 31. -/
theorem test_header :
    let h : Header := ⟨false, 0x02, 1, 1022, 0⟩
    let w := encodeHeader h
    decodeHeader w = .good w ∧ headerFields w = h ∧ decodeHeader (invertPosition w 20) = .corrected w ∧
      decodeHeader (invertPosition w 0) = .corrected w ∧ decodeHeader (invertPosition w 31) = .corrected w ∧
      decodeHeader (invertPosition (invertPosition w 20) 31) = .lost := by decide +kernel

/-- A header word written out bit by bit from R160: kind 01h at positions 5-7 and 9-12, tag 5 at 13-15, length 0, short argument 0;
the positions of its 1s are 12, 13 and 15, so the checks for 12 xor 13 xor 15 = 14 are at 2, 4 and 8, and position 0 is 0. -/
theorem test_header_word : encodeHeader ⟨false, 0x01, 5, 0, 0⟩ = 0b00101000100011010000000000000000 := by
  decide +kernel

/-- Chapter 6: blends. -/
theorem test_blend :
    [blend 120 200 96, blend (-80) (-40) 96, blend 40 (-30) 128, blend (-30) 40 128, blend 313 293 128,
      blend 310 350 17, blend 7 8 127, blend 7 8 128] = [150, -65, 5, 5, 303, 313, 7, 8] := by decide +kernel

/-- Section 6.9: the stream node. -/
theorem test_stream_node :
    magnitude 150 (-65) = 174 ∧ sectorOf 150 (-65) = some 10 ∧ arrowGlyph 150 (-65) 40 50 = .flowing 10 27 false ∧
      direction 10 = (237, 98) ∧ offsetAlong 10 27 = (25, 10) ∧ arrowGlyph 200 (-40) 40 50 = .flowing 9 33 false := by
  decide +kernel

/-- Section 6.10: the wind node. -/
theorem test_wind_node :
    magnitude (-152) (-263) = 320 ∧ sectorOf (-152) (-263) = some 19 ∧ barbGlyph (-152) (-263) = .wind 3 0 3 0 ∧
      offsetAlong 3 30 = (17, -25) ∧ barbGlyph (-12) (-10) = .calm ∧ sectorOf (-12) (-10) = some 20 := by decide +kernel

/-- Section 6.11: the cell, the height and the shade index of the pixel (1034, 548). -/
theorem test_shading :
    let g : Geometry := ⟨.tide, 20000, 23250, 1500, 12, 10, 25⟩
    coast.toChart 1034 548 = (23100, 24001) ∧ g.cell 23100 24001 = some ⟨2, 17, 0, 128⟩ ∧
      [shadeIndex 303 0 50 8, shadeIndex (-450) (-200) 50 8, shadeIndex (-201) (-200) 50 8, shadeIndex (-200) (-200) 50 8,
        shadeIndex 149 (-200) 50 8, shadeIndex 1800 (-200) 50 8] = [14, 8, 8, 8, 14, 23] := by decide +kernel

/-- Section 3.6: the viewport is accepted, with its tiles and its forward mapping. -/
theorem test_viewport :
    coast.accepted = true ∧ coast.tiles = [84, 85, 86, 100, 101, 102] ∧ coast.toScreen 23100 24000 = (1034, 548) := by
  decide +kernel

/-- Section 7.9: the shaft of the arrow and its head strokes. -/
theorem test_arrow_strokes :
    (segment (1034, 548) (1059, 558)).length = 26 ∧ (segment (1034, 548) (1059, 558))[2]? = some (1036, 549) ∧
      Point.along (1059, 558) 23 8 = (1051, 560) ∧ Point.along (1059, 558) 29 8 = (1055, 551) := by decide +kernel

/-- Table 2-5: the key of entry 12 at the levels 5, 56, 127, 249 and 255. -/
theorem test_key_levels :
    [1306, 14366, 32650, 63994, 65280].map (fun a =>
      keyOutput { OutputStage.reset with state := .fadeIn, acc := a, keyEnable := true } true 200) =
      [4, 44, 100, 195, 200] := by decide +kernel

/-- Section 5.6: the fractions of a travel of 20 frames. -/
theorem test_travel : [1, 2, 5, 8, 10, 15, 20, 21].map (travel 20) = [13, 26, 64, 102, 128, 192, 256, 256] := by
  decide +kernel

/-! ### One step of each command -/

theorem test_powerOnReset :
    let t := after (.powerOnReset true) leaving
    t.timing.rate = .fps5994 ∧ t.output.state = .dark ∧ t.pages.loaded = none ∧ t.freeCount = 1 := by decide +kernel
theorem test_frameStart :
    let t := after (.frameStart []) paged
    t.timing.frame = 1 ∧ t.timing.began = 2970000 ∧ t.timing.scheduled = 5940000 ∧
      (t.render.job.map (·.page)) = some 2 ∧ t.render.bufferA.role = .rendering := by decide +kernel
theorem test_frameStart_fade :
    let t := after (.frameStart []) { paged with output := { OutputStage.reset with state := .fadeIn, acc := 63994, slope := 1306 } }
    t.output.acc = 65280 ∧ t.output.state = .onAir ∧ sent .studio t = [0, 0, 0, 1, 2] := by decide +kernel
/-- The acquisition of section 1.7: a pulse in FREE, and the fourth pulse in window. -/
theorem test_referencePulse :
    let s := { idle with timing := { Timing.reset .fps50 with offset := 1000, frame := 100 } }
    let t := after (.referencePulse 1200000) s
    t.timing.refState = .acquire ∧ t.timing.expected = some 4170000 ∧ t.timing.scheduled = 1201000 ∧
      sent .forecast t = [0, 0, 0, 100, 1] := by decide +kernel
theorem test_referencePulse_locks :
    let s := { idle with timing := { Timing.reset .fps50 with
      refState := .acquire, inWindow := 3, expected := some 13080000, scheduled := 13081000, now := 10111000 } }
    let t := after (.referencePulse 13080002) s
    t.timing.refState = .locked ∧ t.timing.expected = some 16050000 ∧ t.timing.scheduled = 13081000 := by decide +kernel
theorem test_decisionInstant :
    let s := { idle with timing := { Timing.reset .fps50 with refState := .locked, expected := some 4170000 } }
    let t := after .decisionInstant s
    t.timing.refState = .holdover ∧ t.timing.now = 5655000 ∧ t.timing.expected = some 7140000 := by decide +kernel
theorem test_holdoverExpiry :
    let s := { idle with timing := { Timing.reset .fps50 with refState := .holdover, holdover := 249, expected := some 4170000 } }
    let t := after .holdoverExpiry s
    t.timing.refState = .free ∧ t.timing.expected = none ∧ t.ahead = [.reference, .generator] ∧ sent .studio t = [0, 0, 0, 1, 0] := by
  decide +kernel
/-- The nudge of section 1.7. -/
theorem test_nudgeApply :
    let s := { idle with timing := { Timing.reset .fps50 with
      offset := 1000, nudge := some ⟨8, 14000000, false, none⟩, scheduled := 16051000, scheduledAt := 13081000 } }
    let t := after .nudgeApply s
    t.timing.began = 16051008 ∧ t.timing.scheduled = 19021008 ∧ t.timing.offset = 1008 ∧ t.timing.nudge = none ∧
      t.timing.now = 16051008 := by
  decide +kernel
theorem test_offsetTakesEffect :
    let s := { idle with timing := { Timing.reset .fps50 with offset := 1000, pendingOffset := some 400 } }
    let t := after .offsetTakesEffect s
    t.timing.offset = 400 ∧ t.timing.frame = 1 ∧ (after (.frameStart []) t).timing.scheduled = 2970000 + 2969400 := by
  decide +kernel
/-- A pulse that realigns at the instant at which the offset has taken effect replaces the frame's end (R8, R17). -/
theorem test_offsetTakesEffect_then_pulse :
    let s := { idle with timing := { Timing.reset .fps50 with offset := 1000, pendingOffset := some 400 } }
    let t := after (.frameStart []) (after (.referencePulse 2970000) (after .offsetTakesEffect s))
    t.timing.frame = 1 ∧ t.timing.began = 2970000 ∧ t.timing.scheduled = 2970400 := by decide +kernel
theorem test_pendingCut :
    let t := after .pendingCut { leaving with output := { leaving.output with cut := some .toDark } }
    t.output.state = .dark ∧ t.output.acc = 0 ∧ t.pages.outgoing = none ∧ sent .studio t = [0, 0, 0, 1, 0] := by
  decide +kernel
theorem test_panicActs :
    let t := after .panicActs (after (.panic (ps 0 [])) leaving)
    t.output.state = .dark ∧ t.output.acc = 0 ∧ t.timing.now = 2640 ∧ t.studio.slot = none ∧
      t.studio.queue.length = 1 := by decide +kernel
/-- A PANIC that waits for the line start at which frame 1 begins acts there, though FRAME_START is handled first (R25). -/
theorem test_panicActs_at_frame_start :
    let s := { leaving with timing := { leaving.timing with now := 2969999 } }
    let t := after .panicActs (after (.frameStart []) (after (.panic (ps 0 [])) s))
    t.output.state = .dark ∧ t.timing.now = 2970000 ∧ t.timing.frame = 1 := by decide +kernel
/-- The same PANIC handled ahead of FRAME_START: its notice carries the number that the frame start sets (R25, R27). -/
theorem test_panicActs_ahead_of_frame_start :
    let s := { leaving with timing := { leaving.timing with now := 2969999 } }
    let t := after .panicActs (after (.panic (ps 0 [])) s)
    t.output.state = .dark ∧ t.timing.now = 2970000 ∧ t.timing.frame = 1 ∧ sent .studio t = [0, 0, 0, 1, 0] ∧
      (after (.frameStart []) t).timing.frame = 1 ∧ (after (.frameStart []) t).output.state = .dark := by decide +kernel
theorem test_flip :
    let t := after (.flip 1) (fielded (windSet .pending [0, 1]))
    t.store.sets[1].bank0.role = .live ∧ t.store.sets[1].bank1.role = .staging ∧ sent .forecast t = [0, 0, 0, 1, 0] := by
  decide +kernel
/-- A field set whose LOADED page draws it with timeline 1, and that timeline as given. -/
def drawnWith (v : Timeline) : State :=
  let layer : Layer := .windBarbs ⟨1, .timeline 1, 4, 1, false, none⟩
  ({ fielded (windSet .pending [0, 1]) with
    pages := ⟨(Vector.replicate 16 none).set 2 (some (small [layer])), some 2, none⟩ }).setTimeline 1 v

/-- The timeline of a flip has handled the frame start with it, so a command taken then begins no step at it (R58, R78, R86). -/
theorem test_flip_with_its_timeline :
    let s := after (.flip 1) (drawnWith { Timeline.reset with state := .armed })
    let t := after (.frameStart []) (after (.timelineSteps (ps 1 [3])) s)
    t.timelines[1].state = .armed ∧ t.timelines[1].counter = 3 ∧ t.timelines[1].shown.boundary = true ∧
      t.store.sets[1].bank0.role = .live ∧ t.timing.frame = 1 := by decide +kernel
/-- The commit at frame start 316 of section 5.6. -/
theorem test_timelineCommit :
    let t := after (.timelineCommit 1) (timed { committing with queued := 3 })
    t.timelines[1].s = 6 ∧ t.timelines[1].counter = 1 ∧ t.timelines[1].queued = 3 ∧ t.timelines[1].state = .armed ∧
      t.studio = Port.reset := by decide +kernel
theorem test_blinkCycleEnd :
    let t := after (.blinkCycleEnd 2) (idle.setBlink 2 ⟨true, 49, 50, 25, some (10, 3), false, none⟩)
    t.blinks[2] = ⟨true, 0, 10, 3, none, true, none⟩ := by decide +kernel
/-- A generator enabled in the pixel period of a frame start, ahead of it, is ON for that frame though its on-count is 1 (R91). -/
theorem test_blinkSet_enables_at_frame_start :
    let s := { idle.setBlink 2 ⟨false, 0, 50, 25, none, true, none⟩ with
      timing := { Timing.reset .fps50 with now := 2970000 } }
    let t := after (.frameStart []) (after (.blinkSet (ps 2 [10, 1, 1])) s)
    t.blinks[2] = ⟨true, 1, 10, 1, none, true, none⟩ ∧ (after (.frameStart []) t).blinks[2].on = false := by decide +kernel
theorem test_memoExpiry :
    let t := after (.memoExpiry .studioToForecast) (idle.setMemoSlot .studioToForecast (some ⟨[7], some 1⟩))
    t.memo.studioToForecast = none ∧ sent .studio t = [0, 0, 0, 1, 1] := by decide +kernel
/-- A memo posted between the expiry and FRAME_START is announced with the number that the frame start has set (R1, R177). -/
theorem test_memoPost_after_expiry :
    let s := after (.memoExpiry .studioToForecast) (idle.setMemoSlot .studioToForecast (some ⟨[7], some 1⟩))
    sent .forecast (after (.memoPost (ps 0 [0, 0, 9])) s) = [0, 0, 0, 1, 1, 1, 0, 0] := by decide +kernel
theorem test_tileFetchComplete_poisons :
    let t := after (.tileFetchComplete []) (busy [.coast coastLayer] 1 (some 0))
    t.chart.suspect = [0] ∧ t.render.job = none ∧ t.render.bufferA.role = .free ∧
      sent .forecast t = [0, 0, 0, 0, 1, 1, 0, 0] ∧
      sent .studio t = [0, 0, 0, 0, 0, 0, 2, 0, 0, 0, 1] := by decide +kernel
theorem test_tileFetchComplete_gives_up :
    let s := busy [.coast coastLayer] 1 (some 0)
    let t := after (.tileFetchComplete []) (s.setChart { s.chart with suspect := [0] })
    t.chart.suspect = [] ∧ t.chart.bad = [0] ∧ (t.render.job.map (·.drawn)) = some 2 := by decide +kernel
/-- A job at the border of tiles 0 and 1 goes on from tile 0 to the fetch of tile 1, and a FLASH READ that waits comes after it. -/
theorem test_tileFetchComplete_keeps_port :
    let j := { aJob [.coast coastLayer] 1 (some 0) with record := ⟨⟨4088, 0, 16, 16, 0, 0, 16, 16⟩, 3, [.coast coastLayer]⟩ }
    let s := (busy [] 1 (some 0)).setJob (some j)
    let t := after (.tileFetchComplete []) (s.setChart { s.chart with suspect := [0], op := some (.read 0 1) })
    t.chart.port = some .fetch ∧ (t.render.job.bind (·.fetching)) = some 1 ∧ t.chart.bad = [0] := by decide +kernel
theorem test_jobComplete :
    let t := after .jobComplete (busy [] 0 none)
    t.render.bufferA.role = .ready ∧ t.render.bufferA.tag = some 2 ∧ t.render.job = none ∧
      t.render.bufferA.pixels.length = 256 ∧ sent .studio t = [0, 0, 0, 0, 2] := by decide +kernel
theorem test_deferredWriteApply :
    let s := idle.setRender { Render.reset with deferred := [.list 3 [] true] }
    let t := after .deferredWriteApply (s.setPort .forecast { Port.reset with slot := some (held .listWrite) })
    t.render.deferred = [] ∧ sent .forecast t = [1, 0] := by decide +kernel
theorem test_cacheRestoreApply :
    let s := idle.setFault { FaultUnit.reset with mode := .bypass }
    let t := after (.cacheRestoreApply .studio) (s.setPort .studio { Port.reset with slot := some (held .cacheRestore) })
    t.fault.mode = .normal ∧ sent .studio t = [0, 0, 1, 0] := by decide +kernel
theorem test_flashReadComplete :
    let s := idle.setChart { idle.chart with op := some (.read 16 3), port := some .read }
    let t := after (.flashReadComplete [0, 0x0F]) (s.setPort .forecast { Port.reset with slot := some (held .flashRead) })
    t.chart.op = none ∧ t.chart.port = none ∧ sent .forecast t = [0, 0, 0xFF, 0xF0, 0xFF] := by decide +kernel
theorem test_flashProgramComplete :
    let s := idle.setChart { idle.chart with op := some (.program 256 (List.replicate 256 0xA5)) }
    let t := after (.flashProgramComplete [0, 0, 0x5A]) (s.setPort .forecast { Port.reset with slot := some (held .flashProgram) })
    t.chart.byte 256 = 0xA5 ∧ t.chart.byte 258 = 0xFF ∧ t.chart.byte 255 = 0xFF ∧ t.chart.state = .unscanned ∧
      (t.forecast.queue.map (·.payload)) = [[17, 0, 0, 1, 2]] := by decide +kernel
theorem test_flashEraseComplete :
    let s := idle.setChart { idle.chart with flash := [(65535, 1), (65536, 2), (131071, 3), (131072, 4)], op := some (.erase 1) }
    let t := after .flashEraseComplete s
    t.chart.flash = [(65535, 1), (131072, 4)] ∧ t.chart.state = .unscanned := by decide +kernel
theorem test_scanComplete_absent :
    let t := after (.scanComplete []) State.reset
    t.chart.state = .absent ∧ t.chart.op = none ∧ t.fault.record = none ∧ sent .forecast t = [0, 0, 0, 0, 2] := by
  decide +kernel
theorem test_transmitEnd :
    let t := after (.transmitEnd .studio) (ported .studio { Port.reset with tx := some aNotice, queue := [aNotice, aReply, aNotice] })
    t.studio.tx = some aReply ∧ t.studio.queue = [aNotice, aNotice] := by decide +kernel
theorem test_lineBreak :
    let t := after (.lineBreak .studio) (ported .studio { Port.reset with slot := some (held .panic), queue := [aReply], rx := .header })
    t.studio.held = true ∧ t.studio.suppressed = true ∧ t.studio.queue = [] ∧ t.studio.rx = .hunting := by decide +kernel
theorem test_lineBreakEnd :
    let t := after (.lineBreakEnd .studio) (ported .studio { Port.reset with held := true, queue := [aNotice] })
    t.studio.held = false ∧ t.studio.tx = some aNotice ∧ t.studio.queue = [] := by decide +kernel
theorem test_framingError :
    let t := after (.framingError .forecast) (ported .forecast { Port.reset with rx := .payload, packet := some ⟨[1], none⟩ })
    t.forecast.rx = .hunting ∧ t.forecast.packet = none ∧ t.forecast.summary.byte = 0x10 := by decide +kernel
theorem test_receiveTimeout :
    let t := after (.receiveTimeout .forecast) (ported .forecast { Port.reset with rx := .header })
    t.forecast.rx = .hunting ∧ t.forecast.summary.byte = 0x08 := by decide +kernel
theorem test_headerReceived :
    let t := after (.headerReceived .forecast (invertPosition (encodeHeader ⟨false, 0x02, 1, 1022, 0⟩) 20))
      (ported .forecast { Port.reset with rx := .header })
    t.forecast.rx = .payload ∧ (t.forecast.packet.bind (·.header)) = some ⟨false, 0x02, 1, 1022, 0⟩ ∧
      t.forecast.summary.byte = 0x01 := by decide +kernel
/-- A header that has been received decides which packet completes, and at what length (R159). -/
theorem test_headerReceived_length :
    let s := after (.headerReceived .studio (encodeHeader ⟨false, 0x02, 5, 2, 0⟩)) (after (.startByte .studio) idle)
    after (.echo (ps 0 [1])) s = s ∧ after (.take (ps 0 [0, 1])) s = s ∧ sent .studio (after (.echo (ps 0 [1, 2])) s) = [0, 0, 1, 2] ∧
      (after (.echo (ps 0 [1, 2])) s).studio.rx = .hunting := by decide +kernel
theorem test_unknownPacket :
    sent .forecast (after (.unknownPacket 0x7F (pf 0 [])) idle) = [4, 0] := by decide +kernel
theorem test_status :
    (sent .studio (after (.status (ps 0 [])) paged)).take 13 = [0, 0, 0, 0, 0, 0, 0, 0, 0, 0, 2, 0xFF, 0xFF] := by
  decide +kernel
theorem test_echo : sent .forecast (after (.echo (pf 0 [1, 2, 3])) idle) = [0, 0, 1, 2, 3] := by decide +kernel
theorem test_faultRead :
    let t := after (.faultRead (ps 0 [])) (idle.setFault ⟨some ⟨.hard, .tileBad, some 258, 7⟩, true, .bypass⟩)
    t.fault = ⟨none, false, .bypass⟩ ∧ (sent .studio t).length = 13 := by decide +kernel
theorem test_cacheRestore_waits :
    let t := after (.cacheRestore (ps 0 [])) (busy [] 0 none)
    (t.studio.holds .cacheRestore) = true ∧ t.studio.tx = none := by decide +kernel
theorem test_memoPost :
    let t := after (.memoPost (pf 0 [0x0F, 0xA0, 9, 8])) idle
    t.memo.forecastToStudio = some ⟨[9, 8], some 3000⟩ ∧ sent .forecast t = [1, 0, 0x0B, 0xB8] ∧
      (sent .studio t).take 4 = [0, 0, 0, 0] := by decide +kernel
theorem test_memoTake :
    let t := after (.memoTake (ps 0 [])) (idle.setMemoSlot .forecastToStudio (some ⟨[9, 8], none⟩))
    t.memo.forecastToStudio = none ∧ sent .studio t = [0, 0, 9, 8, 2, 0, 0] := by decide +kernel
theorem test_memoWithdraw :
    sent .studio (after (.memoWithdraw (ps 0 [])) idle) = [19, 0] := by decide +kernel
theorem test_gridDefine :
    let t := after (.gridDefine (pf 1 [0, 0, 0, 0, 0, 0, 16, 2, 2, 1])) idle
    t.store.sets[1] = windSet .staging [] ∧ sent .forecast t = [0, 0] := by decide +kernel
theorem test_gridRows :
    let t := after (.gridRows (pf 1 [0, 1, 0x7F, 0xFF, 0, 2, 0, 3, 0xFF, 0xFF])) (fielded (windSet .staging []))
    t.store.sets[1].bank0 = ⟨.staging, [(1, [2000, 2, 3, -1])], [1]⟩ ∧ sent .forecast t = [1, 0, 0, 1] := by decide +kernel
theorem test_gridPublish :
    sent .forecast (after (.gridPublish (pf 1 [])) (fielded (windSet .staging [0]))) = [12, 0, 0, 1, 0, 1] := by
  decide +kernel
theorem test_gridPublish_complete :
    (after (.gridPublish (pf 1 [])) (fielded (windSet .staging [0, 1]))).store.sets[1].bank0.role = .pending := by
  decide +kernel
theorem test_gridStatus :
    sent .forecast (after (.gridStatus (pf 1 [])) (fielded (windSet .staging [0]))) =
      [0, 0, 1, 0, 0, 0, 0, 0, 0, 16, 2, 2, 1, 2, 0, 0, 1] := by decide +kernel
theorem test_listWrite :
    let t := after (.listWrite (pf 3 [1, 7, 1, 0, 2, 0, 4, 5, 0xFF, 0x80, 0])) idle
    t.store.lists[3] = [⟨7, 256, 512, 4, 5, none, none⟩] ∧ sent .forecast t = [0, 0] := by decide +kernel
theorem test_symbolWrite :
    let t := after (.symbolWrite (pf 3 (15 :: List.replicate 256 0x1B))) idle
    symbolCode t.store.symbols[63] 0 1 = 1 ∧ symbolCode t.store.symbols[63] 31 31 = 3 := by decide +kernel
theorem test_flashRead :
    let t := after (.flashRead (pf 0 [0, 0xFF, 0xFF, 0, 1, 0])) idle
    t.chart.op = some (.read 16776960 256) ∧ t.chart.port = some .read ∧ (t.forecast.holds .flashRead) = true := by
  decide +kernel
theorem test_flashProgram :
    sent .forecast (after (.flashProgram (pf 0 ([0, 0, 0, 1] ++ List.replicate 256 0))) idle) = [7, 0] := by decide +kernel
theorem test_flashErase :
    (after (.flashErase (pf 0 [0, 255])) idle).chart.op = some (.erase 255) ∧
      sent .forecast (after (.flashErase (pf 0 [1, 0])) idle) = [7, 0] := by decide +kernel
theorem test_chartRescan :
    let t := after (.chartRescan (pf 0 [])) idle
    t.chart.state = .scanning ∧ t.chart.op = some (.rescan true) ∧ sent .forecast t = [0, 0, 0, 0, 0] := by decide +kernel

/-- A PAGE DEFINE payload: the viewport of `small`, sea index 3, and one COAST layer of width 9. -/
def pagePayload : List Nat :=
  [0, 0, 0, 0, 0, 0, 16, 0, 0, 16, 0, 0, 0, 0, 0, 16, 0, 16, 3, 1] ++
    [0, 0xFF, 0xFF, 0xFF, 4, 5, 9] ++ List.replicate 10 0xFF

theorem test_pageDefine :
    let t := after (.pageDefine (ps 7 pagePayload)) idle
    t.pages.pages[7] = some (small [.coast ⟨4, 5, 4⟩]) ∧ sent .studio t = [1, 0] := by decide +kernel
theorem test_pageDelete :
    (after (.pageDelete (ps 3 [])) paged).pages.pages[3] = none ∧
      sent .studio (after (.pageDelete (ps 2 [])) paged) = [8, 0] := by decide +kernel
theorem test_pageRead :
    (sent .studio (after (.pageRead (ps 2 [])) paged)).take 5 = [0, 0, 2, 0, 0] ∧
      sent .studio (after (.pageRead (ps 9 [])) paged) = [0, 0, 0] := by decide +kernel
/-- The cut between charts on air of section 3.10: the former page becomes OUTGOING. -/
theorem test_load :
    let t := after (.load (ps 3 [])) { leaving with pages := { leaving.pages with outgoing := none } }
    t.pages.loaded = some 3 ∧ t.pages.outgoing = some 2 ∧ sent .studio t = [0, 0, 3, 2] := by decide +kernel
/-- The key enable of the page that a LOAD returns to DEFINED waits for the next line start, not for the end of the frame that a nudge
moves into the line (R28). -/
theorem test_load_drops_key :
    let t := after (.load (ps 3 [])) keyed
    t.output.keyEnable = true ∧ t.output.keyDropAt = some 2970000 ∧ t.timing.frameInstant = 2969985 := by decide +kernel
theorem test_unload :
    (after (.unload (ps 0 [])) paged).pages.loaded = none ∧
      sent .studio (after (.unload (ps 0 [])) leaving) = [8, 0] := by decide +kernel
/-- TAKE 50 of section 2.7: the notice goes ahead of the reply. -/
theorem test_take :
    let t := after (.take (ps 0 [0, 50])) paged
    t.output.state = .fadeIn ∧ t.output.slope = 1306 ∧ sent .studio t = [0, 0, 0, 0, 1] ∧
      (t.studio.queue.map (·.payload)) = [[0, 0, 0, 50]] := by decide +kernel
/-- CLEAR 20 of section 2.7. -/
theorem test_clear :
    let t := after (.clear (ps 0 [0, 20])) { paged with output := { OutputStage.reset with state := .fadeIn, acc := 32650, slope := 1306 } }
    t.output.state = .fadeOut ∧ t.output.slope = 3264 ∧ t.output.acc = 32650 ∧
      (OutputStage.fadeStep t.output).acc = 29386 := by decide +kernel
theorem test_panic : ((after (.panic (ps 0 [])) leaving).studio.holds .panic) = true := by decide +kernel
theorem test_paletteWrite :
    let t := after (.paletteWrite (ps 0 [31, 1, 255, 0, 240, 77])) idle
    t.output.staged[31] = ⟨235, 16, 240, 77⟩ ∧ t.output.palette = OutputStage.reset.palette ∧ sent .studio t = [1, 0] := by
  decide +kernel
theorem test_timelineSet :
    let t := after (.timelineSet (ps 1 [1, 0, 65, 16, 0, 26])) (timed { Timeline.reset with s := 24 })
    t.timelines[1] = { Timeline.reset with s := 24, reverse := true, rate := 0, tf := 64, lead := 15, tr := 1, span := 25 } ∧
      sent .studio t = [1, 0, 0, 24, 0, 0, 0, 0] := by decide +kernel
theorem test_timelineSteps :
    (after (.timelineSteps (ps 1 [16])) (timed committing)).timelines[1].queued = 15 ∧
      (after (.timelineSteps (ps 1 [16])) idle).timelines[1].counter = 15 := by decide +kernel
theorem test_timelineRun :
    (after (.timelineRun (ps 1 [])) idle).timelines[1].state = .armed ∧
      (after (.timelineRun (ps 1 [6])) (timed committing)).timelines[1].nextRate = some 6 := by decide +kernel
theorem test_timelineStop :
    (after (.timelineStop (ps 1 [])) (timed committing)).timelines[1].state = .stopping := by decide +kernel
theorem test_timelineJump :
    (after (.timelineJump (ps 1 [30])) idle).timelines[1].s = 24 ∧
      sent .studio (after (.timelineJump (ps 1 [30])) (timed committing)) = [13, 0] := by decide +kernel
theorem test_timelineClear :
    (after (.timelineClear (ps 1 [])) (timed { Timeline.reset with counter := 4, queued := 2 })).timelines[1] = Timeline.reset := by
  decide +kernel
theorem test_blinkSet :
    (after (.blinkSet (ps 2 [1, 9, 1])) idle).blinks[2] = ⟨true, 0, 50, 25, some (2, 1), true, none⟩ ∧
      (after (.blinkSet (ps 2 [10, 3, 0])) idle).blinks[2] = ⟨false, 0, 10, 3, none, true, none⟩ := by decide +kernel
theorem test_offset :
    let t := after (.offset (ps 0 [0, 0x2D, 0x51, 0x90])) idle
    t.timing.pendingOffset = some 2969999 ∧ t.timing.offset = 0 ∧ sent .studio t = [1, 0, 0, 0x2D, 0x51, 0x8F] := by
  decide +kernel
theorem test_nudge :
    let t := after (.nudge (ps 0 [0, 17])) idle
    t.timing.nudge = some ⟨16, 0, false, none⟩ ∧ sent .studio t = [1, 0, 0, 16] := by decide +kernel
theorem test_startByte :
    let t := after (.startByte .studio) idle
    t.studio.rx = .header ∧ t.studio.packet = some ⟨[], none⟩ := by decide +kernel
theorem test_cacheHitParityError :
    let s := busy [.coast coastLayer] 1 none
    let t := after (.cacheHitParityError 0)
      (s.setChart { s.chart with cache := s.chart.cache.set 9 (some ⟨0, ⟨[], []⟩, true, 4⟩) })
    t.chart.cache[9] = none ∧ t.fault.record = some ⟨.soft, .cacheParity, some 0, 0⟩ ∧
      (t.render.job.map (·.fetching)) = some (some 0) ∧ t.chart.port = some .fetch := by decide +kernel
theorem test_tick :
    (State.tick State.reset).timing.now = 1 ∧
      (State.tick { idle with timing := { Timing.reset .fps50 with now := 2969999 } }).timing.now = 2969999 := by
  decide +kernel

/-! ### Witnesses: a state and operands that meet the hypotheses of each statement, clause by clause -/

/-- The outcome of a command is a next state. -/
theorem completes (c : Instr) (s : State) (h : exec c s = .next (after c s)) : ∃ t, exec c s = .next t := ⟨_, h⟩

theorem witness_StepCarriesOutFrontCommand :
    ({ idle with pending := [.status (ps 0 [])] } : State).pending = .status (ps 0 []) :: [] ∧ idle.pending = [] := by
  decide +kernel

theorem witness_CommandLeavesOtherBlocks :
    ∃ t, exec (.framingError .studio) State.reset = .next t ∧ Block.store ∉ touched (.framingError .studio) :=
  ⟨_, rfl, by decide⟩

theorem witness_LimitsAndMemoriesKept :
    (∃ t, step State.reset = .next t) ∧ State.reset.bounded ∧ State.reset.canonical :=
  ⟨⟨_, rfl⟩, by decide +kernel, by decide +kernel⟩

/-- The bytes on either side of a sector that is being erased, and of a page that is being programmed, keep their values. -/
theorem witness_PowerOnResetSetsEveryBlock :
    (∀ a d, State.reset.chart.op ≠ some (.program a d)) ∧ (∀ k, State.reset.chart.op ≠ some (.erase k)) ∧
      Mem.wf flashDefault State.reset.chart.flash = true ∧
      (∀ k, some (FlashOp.erase 1) = some (.erase k) → 65535 < k * 65536 ∧ (k + 1) * 65536 ≤ 131072) ∧
      (∀ m d, some (FlashOp.program 256 []) = some (.program m d) → 255 < m ∧ m + 256 ≤ 512) := by
  refine ⟨?_, ?_, by decide, ?_, ?_⟩
  · intro a d h; cases h
  · intro k h; cases h
  · intro k h; cases h; omega
  · intro m d h; cases h; omega

theorem witness_FrameStartAdvances :
    State.reset.timing.pendingOffset = none ∧ FramePart.generator ∉ State.reset.ahead ∧
      FramePart.generator ∈ (State.reset.markAhead .generator).ahead := by decide

/-- A generator in a reference state, with the expected instant 100 and the given counts. -/
def reference (r : RefState) (inWindow mismatch : Nat) : State :=
  { idle with timing := { Timing.reset .fps50 with
      refState := r, expected := some 100, inWindow := inWindow, mismatch := mismatch } }

/-- Pulses at the two edges of the window, 98 and 102, and just outside it, 97 and 103, in each state. -/
theorem witness_PulseFollowsTable :
    State.reset.timing.refState = .free ∧
      (reference .acquire 2 0).timing.expected = some 100 ∧ (reference .acquire 2 0).timing.refState = .acquire ∧
      inWindowAt 100 98 ∧ inWindowAt 100 102 ∧ ¬inWindowAt 100 97 ∧ ¬inWindowAt 100 103 ∧
      max (reference .acquire 2 0).timing.now 102 = 102 ∧
      (reference .acquire 2 0).timing.inWindow < 3 ∧ 3 ≤ (reference .acquire 3 0).timing.inWindow ∧
      (reference .locked 0 0).timing.refState = .locked ∧ (reference .locked 0 0).timing.mismatch = 0 ∧
      (reference .locked 0 1).timing.mismatch ≠ 0 ∧ (reference .holdover 0 0).timing.refState = .holdover := by
  decide +kernel

theorem witness_LossOfReferenceActs :
    (reference .acquire 2 0).timing.expected = some 100 ∧ (reference .acquire 2 0).timing.refState ≠ .free ∧
      (reference .acquire 2 0).timing.pulseSeen = false ∧ (reference .locked 0 0).timing.pulseSeen = false ∧
      ({ (reference .locked 0 1).timing with pulseSeen := true } : Timing).pulseSeen = true ∧
      (let s := (reference .holdover 0 0).setTiming { (reference .holdover 0 0).timing with holdover := 249 }
       s.timing.refState = .holdover ∧ s.timing.holdover = 249 ∧ FramePart.reference ∉ s.ahead) ∧
      (let s := (reference .holdover 0 0).setTiming { (reference .holdover 0 0).timing with holdover := 248 }
       s.timing.refState = .holdover ∧ s.timing.holdover < 249 ∧ FramePart.reference ∉ s.ahead) := by decide +kernel

/-- The nudge of section 1.7, at the least scheduled frame start that it may move, and a pending offset with a nudge behind it. -/
theorem witness_NudgeAndOffsetMoveTheFrameStart :
    (let n : PendingNudge := ⟨-15, 14000000, false, some 13081000⟩
     let s := idle.setTiming { Timing.reset .fps50 with nudge := some n, scheduled := 14000017, scheduledAt := 14000000 }
     s.timing.nudge = some n ∧ n.behindOffset = false ∧ n.takenAt + 16 < s.timing.scheduled ∧
        n.offsetAt = some 13081000 ∧ 13081000 + 16 < s.timing.scheduled ∧
        s.timing.scheduledAt + 16 < s.timing.scheduled ∧ FramePart.generator ∉ s.ahead ∧ s.timing.pendingOffset = none ∧
        s.timing.refState ≠ .holdover) ∧
      (let late : PendingNudge := ⟨-15, 2969984, false, none⟩
       let n : PendingNudge := ⟨-15, 2969983, false, some 2969984⟩
       let m : PendingNudge := ⟨-15, 2969983, false, some 2969983⟩
       let s (n : PendingNudge) (at_ : Nat) := idle.setTiming { Timing.reset .fps50 with nudge := some n, scheduledAt := at_ }
       (s late 0).timing.nudge = some late ∧ (s late 0).timing.scheduled ≤ late.takenAt + 16 ∧
         n.offsetAt = some 2969984 ∧ (s n 0).timing.scheduled ≤ 2969984 + 16 ∧
         (s m 2969984).timing.scheduled ≤ (s m 2969984).timing.scheduledAt + 16 ∧
         (s m 2969983).timing.frameInstant = 2969985 ∧ (s m 2969984).timing.frameInstant = 2970000 ∧
         (s n 0).timing.frameInstant = 2970000 ∧ (s late 0).timing.frameInstant = 2970000 ∧
         (s late 0).timing.pendingOffset = none ∧ late.behindOffset = false ∧ FramePart.generator ∉ (s late 0).ahead) ∧
      (let n : PendingNudge := ⟨16, 0, true, none⟩
       let s := idle.setTiming { Timing.reset .fps50 with nudge := some n, pendingOffset := some 2969999 }
       s.timing.pendingOffset = some 2969999 ∧ FramePart.generator ∉ s.ahead ∧ s.timing.nudge = some n ∧
          n.behindOffset = true) := by decide +kernel

theorem witness_PhaseCommandsAccepted :
    (let s := idle.setTiming { Timing.reset .fps50 with nudge := some ⟨1, 0, false, none⟩ }
     takes .nudge (ps 0 [0, 0]) s = true ∧ s.timing.nudge = some ⟨1, 0, false, none⟩) ∧
      takes .nudge (ps 0 [0xFF, 0xF0]) idle = true ∧ idle.timing.nudge = none ∧
      takes .offset (ps 0 [0xFF, 0xFF, 0xFF, 0xFF]) idle = true := by decide +kernel

theorem witness_TakeAndClearFollowTable :
    takes .take (ps 0 [0, 0]) idle = true ∧ idle.pages.loaded = none ∧ takes .take (ps 0 [0, 251]) paged = true ∧
      paged.pages.loaded ≠ none ∧ takes .clear (ps 0 [0, 1]) leaving = true := by decide +kernel

theorem witness_FadeTakesItsDuration :
    slopeOf 1 = 65280 ∧ slopeOf 250 = 262 ∧
      (let o : OutputStage := { OutputStage.reset with state := .fadeIn, slope := slopeOf 250 }
       o.slope = slopeOf 250 ∧ o.state = .fadeIn ∧ o.acc = 0) ∧
      (let o : OutputStage := { OutputStage.reset with state := .fadeOut, acc := 65280, slope := slopeOf 1 }
       o.slope = slopeOf 1 ∧ o.state = .fadeOut ∧ o.acc = 65280) := by decide +kernel

/-- The state `leaving` with a pending cut. -/
def cutting (c : Option Cut) (st : OutputState) : State :=
  { leaving with output := { leaving.output with cut := c, state := st } }

theorem witness_FrameStartDrivesTheOutput :
    FramePart.output ∉ (cutting none .fadeIn).ahead ∧ (cutting none .fadeIn).output.cut = none ∧
      (cutting none .fadeIn).output.state = .fadeIn ∧ (cutting none .fadeOut).output.state = .fadeOut ∧
      (cutting none .dark).output.state = .dark ∧ (cutting none .onAir).output.state = .onAir ∧
      (cutting (some .toOnAir) .dark).output.cut = some .toOnAir ∧
      (cutting (some .toOnAir) .dark).pages.loaded ≠ none ∧ idle.pages.loaded = none ∧
      (cutting (some .toDark) .onAir).output.cut = some .toDark := by decide +kernel

theorem witness_PendingCutActs :
    (cutting (some .toOnAir) .dark).output.cut = some .toOnAir ∧ FramePart.output ∉ (cutting (some .toOnAir) .dark).ahead ∧
      (cutting (some .toDark) .onAir).output.cut = some .toDark ∧ (cutting (some .toDark) .onAir).output.state ≠ .dark ∧
      (cutting (some .toDark) .onAir).pages.loaded ≠ none ∧
      ({ idle with output := { OutputStage.reset with cut := some .toOnAir } } : State).pages.loaded = none := by
  decide +kernel

theorem witness_PanicActsAtTheLineStart :
    takes .panic (ps 0 []) leaving = true ∧
      leaving.timing.began ≤ leaving.timing.now ∧ (after (.panic (ps 0 [])) leaving).timing.panicAt = some 2640 ∧
      FramePart.generator ∉ (after (.panic (ps 0 [])) leaving).ahead ∧
      (leaving.setPort .studio { Port.reset with slot := some (held .panic) }).studio.holds .panic = true ∧
      (after (.panic (ps 0 [])) leaving).timing.panicDue ≠ (after (.panic (ps 0 [])) leaving).timing.frameInstant ∧
      (let s := { leaving with timing := { leaving.timing with now := 2969999 } }
       let t := after (.panic (ps 0 [])) s
       t.timing.panicDue = t.timing.frameInstant ∧ FramePart.generator ∉ t.ahead ∧ t.studio.holds .panic = true) := by
  decide +kernel

/-- A first entry of 31 with one entry is written; one of 31 with two, or a count of 0 or 33, is refused. -/
theorem witness_PaletteWriteStagesEntries :
    takes .paletteWrite (ps 0 [31, 1, 0, 0, 0, 0]) idle = true ∧
      takes .paletteWrite (ps 0 [31, 2, 0, 0, 0, 0, 0, 0, 0, 0]) idle = true ∧
      takes .paletteWrite (ps 0 [32, 1, 0, 0, 0, 0]) idle = true ∧ takes .paletteWrite (ps 0 [0, 0]) idle = true ∧
      takes .paletteWrite (ps 0 ([0, 33] ++ List.replicate 132 0)) idle = true ∧
      takes .paletteWrite (ps 0 ([0, 32] ++ List.replicate 128 0)) idle = true := by decide +kernel

theorem witness_OutputLegalKept : State.reset.output.legal ∧ leaving.output.legal ∧ ∃ t, step leaving = .next t :=
  ⟨by decide +kernel, by decide +kernel, ⟨_, rfl⟩⟩

theorem witness_KeyOutputIsScaled :
    State.reset.output.legal ∧ State.reset.output.state = .dark ∧ State.reset.output.keyEnable = false ∧
      (let o : OutputStage := { leaving.output with keyEnable := true }
       o.legal ∧ o.state = .onAir ∧ o.state ≠ .dark ∧ o.keyEnable = true ∧ (255 : Nat) ≤ 255) ∧
      (let t : Timing := { Timing.reset .fps50 with now := 1120 * 2640 + 1919 }
       41 ≤ (t.now - t.began) / t.rate.width ∧ (t.now - t.began) / t.rate.width ≤ 1120 ∧
         (t.now - t.began) % t.rate.width < 1920) ∧
      ¬(41 ≤ (State.reset.timing.now - State.reset.timing.began) / State.reset.timing.rate.width) ∧
      State.reset.render.front = none ∧
      (keyed.timing.began ≤ keyed.timing.now ∧ keyed.output.keyDropAt = none ∧ keyed.frontKeyed = true ∧
        keyed.output.keyEnable = true ∧ (after (.load (ps 3 [])) keyed).frontKeyed = false ∧
        (after (.unload (ps 0 [])) keyed).frontKeyed = false) ∧
      (let s : State := { leaving with
         output := { leaving.output with keyEnable := true }
         render := { Render.reset with bufferA := ⟨.front, some 3, []⟩ } }
       s.frontKeyed = true ∧ (after .panicActs (s.setPort .studio { Port.reset with slot := some (held .panic) })).frontKeyed = false) ∧
      (let s : State := { keyed with
         output := { OutputStage.reset with keyEnable := true, keyDropAt := some 2970000 }
         timing := { Timing.reset .fps50 with pendingOffset := some 5 } }
       s.output.keyDropAt = some 2970000 ∧ s.timing.pendingOffset = some 5 ∧ FramePart.generator ∉ s.ahead ∧
         2970000 ≤ max s.timing.now 2970000 ∧ max s.timing.now 2969999 < 2970000) ∧
      (let r : Render := { Render.reset with bufferA := ⟨.front, none, [(0, 31)]⟩ }
       r.front = some ⟨.front, none, [(0, 31)]⟩ ∧ Mem.read pixelDefault [(0, 31)] ((41 - 41) * 1920 + 0) = (31 : Fin 32).val) := by
  decide +kernel

/-- The same page payload with a chart window of 65,536 by 65,536 units, whose scale is no viewport's. -/
def widePayload : List Nat :=
  [0, 0, 0, 0, 1, 0, 0, 1, 0, 0, 0, 0, 0, 0, 0, 16, 0, 16, 3, 1] ++ pagePayload.drop 20

theorem witness_PageContentCommands :
    takes .pageDefine (ps 2 pagePayload) paged = true ∧ paged.pages.keyed (pageOf (ps 2 pagePayload)) = true ∧
      takes .pageDefine (ps 15 pagePayload) paged = true ∧ paged.pages.keyed (pageOf (ps 15 pagePayload)) = false ∧
      (parsePage (ps 15 pagePayload).payload = some (small [.coast ⟨4, 5, 4⟩], true)) ∧
      (small []).view.accepted = true ∧ takes .pageDefine (ps 0 widePayload) paged = true ∧
      takes .pageDefine (ps 0 (pagePayload.set 18 32)) paged = true ∧
      parsePage (ps 0 (pagePayload.set 18 32)).payload = none ∧ takes .pageDelete (ps 2 []) paged = true ∧
      ((parsePage (ps 0 widePayload).payload).map (·.1.view.accepted)) = some false ∧
      takes .pageDelete (ps 3 []) paged = true ∧ paged.pages.keyed (pageOf (ps 3 [])) = false ∧
      paged.pages.pages[pageOf (ps 3 [])] ≠ none ∧ takes .pageRead (ps 2 []) paged = true := by decide +kernel

theorem witness_StoredPageReadsBack :
    parsePage (ps 0 pagePayload).payload = some (small [.coast ⟨4, 5, 4⟩], true) := by decide +kernel

theorem witness_LoadAndUnloadAct :
    takes .load (ps 9 []) paged = true ∧ paged.pages.pages[pageOf (ps 9 [])] = none ∧
      takes .load (ps 2 []) paged = true ∧ paged.pages.pages[pageOf (ps 2 [])] ≠ none ∧
      paged.pages.loaded = some (pageOf (ps 2 [])) ∧ takes .load (ps 3 []) paged = true ∧
      paged.pages.pages[pageOf (ps 3 [])] ≠ none ∧ paged.pages.loaded ≠ some (pageOf (ps 3 [])) ∧
      paged.chart.op = none ∧ State.reset.chart.op ≠ none ∧ paged.output.state = .dark ∧ paged.pages.loaded ≠ none ∧
      leaving.output.state ≠ .dark ∧ leaving.pages.outgoing = some (pageOf (ps 3 [])) ∧
      pageOf (ps 3 []) ≠ pageOf (ps 4 []) ∧ idle.pages.loaded = none ∧ takes .unload (ps 0 []) leaving = true ∧
      takes .unload (ps 0 []) paged = true ∧ takes .unload (ps 0 []) idle = true := by decide +kernel

theorem witness_PagesLegalKept :
    State.reset.pages.legal State.reset.output.state ∧ leaving.pages.legal leaving.output.state ∧
      ∃ t, step leaving = .next t := ⟨by decide +kernel, by decide +kernel, ⟨_, rfl⟩⟩

/-- The corner pixels and chart points of the spec's page 2. -/
theorem witness_ViewportMapsStayInside :
    coast.accepted = true ∧ coast.sx0 ≤ 160 ∧ 1759 < coast.sx0 + coast.sw ∧ coast.sy0 ≤ 90 ∧
      989 < coast.sy0 + coast.sh ∧ coast.cx0 ≤ 16384 ∧ 28671 < coast.cx0 + coast.cw ∧ coast.cy0 ≤ 20480 ∧
      27391 < coast.cy0 + coast.ch := by decide +kernel

/-- A GRID DEFINE payload of kind WIND with the given columns. -/
def gridPayload (kind columns : Nat) : List Nat := [kind, 0, 0, 0, 0, 0, 16, columns, 2, 1]

theorem witness_GridDefineStartsAnew :
    (let layer : Layer := .windBarbs ⟨1, .fixed 0, 4, 1, false, none⟩
     let s := { paged with pages := { paged.pages with pages := paged.pages.pages.set 2 (some (small [layer])) } }
     takes .gridDefine (pf 1 (gridPayload 0 2)) s = true ∧ (pf 1 (gridPayload 0 2)).arg.toNat = (1 : Fin 4).val ∧
        s.pages.namesField 1 = true) ∧
      (let j := { aJob [] 0 none with captured := (Vector.replicate 4 none).set 1 (some ⟨false, ⟨.wind, 0, 0, 16, 2, 2, 1⟩⟩) }
       ((busy [] 0 none).setJob (some j)).render.holds 1 = true) ∧
      idle.pages.namesField 1 = false ∧ idle.render.holds 1 = false ∧
      takes .gridDefine (pf 1 (gridPayload 2 2)) idle = true ∧ parseGeometry (pf 1 (gridPayload 2 2)).payload = none ∧
      parseGeometry (pf 1 (gridPayload 0 65)).payload = some ⟨.wind, 0, 0, 16, 65, 2, 1⟩ ∧
      (⟨.wind, 0, 0, 16, 65, 2, 1⟩ : Geometry).valid = false ∧
      parseGeometry (pf 1 (gridPayload 0 64)).payload = some ⟨.wind, 0, 0, 16, 64, 2, 1⟩ ∧
      (⟨.wind, 0, 0, 16, 64, 2, 1⟩ : Geometry).valid = true ∧
      takes .gridDefine (pf 4 (gridPayload 0 2)) idle = true ∧ 4 ≤ (pf 4 (gridPayload 0 2)).arg.toNat := by decide +kernel

/-- A GRID ROWS payload for a slot and a row of two WIND nodes. -/
def rowsPayload (slot row : Nat) : List Nat := [slot, row, 0x80, 0, 0, 2, 0, 3, 0xFF, 0xFF]

theorem witness_GridRowsWritesStaging :
    takes .gridRows (pf 1 (rowsPayload 0 1)) (fielded (windSet .staging [])) = true ∧
      (pf 1 (rowsPayload 0 1)).arg.toNat = (1 : Fin 4).val ∧
      (fielded (windSet .staging [])).store.sets[(1 : Fin 4)].geometry = some ⟨.wind, 0, 0, 16, 2, 2, 1⟩ ∧
      (windSet .pending [0, 1]).findRole .pending ≠ none ∧ (windSet .staging []).findRole .pending = none ∧
      (windSet .staging []).findRole .staging = some false ∧
      Mem.wf rowDefault ((windSet .staging []).bank false).values = true ∧
      takes .gridRows (pf 1 (rowsPayload 1 0)) (fielded (windSet .staging [])) = true ∧
      takes .gridRows (pf 1 (rowsPayload 0 2)) (fielded (windSet .staging [])) = true ∧
      takes .gridRows (pf 1 (rowsPayload 0 0)) (fielded (windSet .pending [0, 1])) = true ∧
      takes .gridRows (pf 4 (rowsPayload 0 0)) idle = true ∧ 4 ≤ (pf 4 (rowsPayload 0 0)).arg.toNat ∧
      takes .gridRows (pf 3 (rowsPayload 0 0)) idle = true ∧ (pf 3 (rowsPayload 0 0)).arg.toNat = (3 : Fin 4).val ∧
      idle.store.sets[(3 : Fin 4)].geometry = none := by decide +kernel

theorem witness_GridPublishAndStatus :
    takes .gridPublish (pf 1 []) (fielded (windSet .staging [0])) = true ∧ (pf 1 []).arg.toNat = (1 : Fin 4).val ∧
      rowKey 0 1 ∉ (windSet .staging [0]).bank0.written ∧ rowKey 0 0 ∈ (windSet .staging [0]).bank0.written ∧
      takes .gridPublish (pf 1 []) (fielded (windSet .staging [0, 1])) = true ∧
      ((windSet .staging [0, 1]).bank false).full ⟨.wind, 0, 0, 16, 2, 2, 1⟩ ∧
      takes .gridPublish (pf 1 []) (fielded (windSet .pending [0, 1])) = true ∧
      takes .gridStatus (pf 1 []) idle = true ∧ takes .gridStatus (pf 4 []) idle = true ∧
      takes .gridPublish (pf 4 []) idle = true ∧ 4 ≤ (pf 4 []).arg.toNat ∧ takes .gridPublish (pf 3 []) idle = true ∧
      (pf 3 []).arg.toNat = (3 : Fin 4).val ∧ idle.store.sets[(3 : Fin 4)].geometry = none ∧
      (windSet .staging []).geometry = some ⟨.wind, 0, 0, 16, 2, 2, 1⟩ := by decide +kernel

theorem witness_FlipMakesPendingLive :
    let s := fielded (windSet .pending [0, 1])
    s.store.sets[(1 : Fin 4)].findRole .pending = some false ∧ s.pages.timelinesAtBoundary 1 s.boundaryNow = true ∧
      s.render.holds 1 = false ∧ FramePart.flip 1 ∉ s.ahead ∧ s.store.sets[(0 : Fin 4)].findRole .pending = none ∧
      (let m := drawnWith { committing with k := 14 }
       m.pages.timelinesAtBoundary 1 m.boundaryNow = false) ∧
      (let m := drawnWith committing
       m.store.sets[(1 : Fin 4)].findRole .pending = some false ∧ m.pages.timelinesAtBoundary 1 m.boundaryNow = true ∧
         m.pages.flipTimelines 1 = [1] ∧ FramePart.timeline 1 ∉ m.ahead ∧ m.pages.loadedRecord.isSome = true) ∧
      (let j := { aJob [] 0 none with captured := (Vector.replicate 4 none).set 1 (some ⟨false, ⟨.wind, 0, 0, 16, 2, 2, 1⟩⟩) }
       (s.setJob (some j)).render.holds 1 = true) ∧ FramePart.flip 1 ∈ (s.markAhead (.flip 1)).ahead := by decide +kernel

theorem witness_DeferredWritesApplyInTheGap :
    takes .listWrite (pf 7 [0]) idle = true ∧ (pf 7 [0]).arg.toNat = (7 : Fin 8).val ∧
      fieldNat (pf 7 [0]).payload 0 1 ≤ 48 ∧
      parseAll parsePlacement (records 10 (fieldNat (pf 7 [0]).payload 0 1) ((pf 7 [0]).payload.drop 1)) = some [] ∧
      idle.render.deferred = [] ∧ idle.render.job = none ∧ takes .listWrite (pf 7 [0]) (busy [] 0 none) = true ∧
      (busy [] 0 none).render.job ≠ none ∧ (busy [] 0 none).render.deferred = [] ∧
      takes .symbolWrite (pf 3 (15 :: List.replicate 256 0)) idle = true ∧
      (pf 3 (15 :: List.replicate 256 0)).arg.toNat * 16 + fieldNat (pf 3 (15 :: List.replicate 256 0)).payload 0 1 =
        (63 : Fin 64).val ∧
      (idle.setRender { Render.reset with deferred := [.symbol 0 []] }).render.deferred = [.symbol 0 []] ∧
      takes .symbolWrite (pf 4 (0 :: List.replicate 256 0)) idle = true ∧
      63 < (pf 4 (0 :: List.replicate 256 0)).arg.toNat * 16 + fieldNat (pf 4 (0 :: List.replicate 256 0)).payload 0 1 ∧
      takes .listWrite (pf 8 [0]) idle = true ∧ 8 ≤ (pf 8 [0]).arg.toNat ∧
      takes .listWrite (pf 0 (49 :: List.replicate 490 0)) idle = true ∧
      48 < fieldNat (pf 0 (49 :: List.replicate 490 0)).payload 0 1 ∧
      takes .listWrite (pf 0 [1, 0, 0, 0, 0, 0, 0, 0, 4, 0, 0]) idle = true ∧
      (let r : List Byte := [0, 0, 0, 0, 0, 0, 0, 4, 0, 0]
       r ∈ records 10 (fieldNat (pf 0 [1, 0, 0, 0, 0, 0, 0, 0, 4, 0, 0]).payload 0 1)
          ((pf 0 [1, 0, 0, 0, 0, 0, 0, 0, 4, 0, 0]).payload.drop 1) ∧ parsePlacement r = none) := by
  decide +kernel

theorem witness_FieldSetsLegalKept : (∀ f : Fin 4, State.reset.store.sets[f].legal) ∧ ∃ t, step State.reset = .next t := by
  refine ⟨fun f => ?_, ⟨_, rfl⟩⟩
  have h : State.reset.store.sets[f] = FieldSet.blank := by
    revert f
    decide +kernel
  rw [h]
  exact ⟨rfl, rfl, rfl, rfl⟩

theorem witness_TimelineSettings :
    takes .timelineSet (ps 1 [0, 7, 64, 15, 1, 1]) (timed committing) = true ∧
      (ps 1 [0, 7, 64, 15, 1, 1]).arg.toNat = (1 : Fin 4).val ∧
      (timed committing).timelines[(1 : Fin 4)].moving = true ∧ idle.timelines[(1 : Fin 4)].moving = false ∧
      takes .timelineSet (ps 1 [0, 8, 0, 0, 0, 0]) idle = true ∧ 7 < fieldNat (ps 1 [0, 8, 0, 0, 0, 0]).payload 1 1 ∧
      takes .timelineSet (ps 1 [0, 7, 64, 15, 1, 1]) idle = true ∧
      fieldNat (ps 1 [0, 7, 64, 15, 1, 1]).payload 1 1 ≤ 7 ∧ takes .timelineJump (ps 1 [0]) (timed committing) = true ∧
      takes .timelineJump (ps 1 [24]) idle = true ∧ takes .timelineClear (ps 1 []) (timed committing) = true ∧
      takes .timelineClear (ps 1 []) idle = true ∧ 4 ≤ (ps 4 []).arg.toNat ∧ takes .timelineClear (ps 4 []) idle = true ∧
      takes .timelineJump (ps 4 [0]) idle = true ∧ takes .timelineSet (ps 4 [0, 7, 64, 15, 1, 1]) idle = true := by
  decide +kernel

theorem witness_TimelineRunControl :
    takes .timelineSteps (ps 1 [15]) (timed committing) = true ∧ takes .timelineSteps (ps 1 [0]) idle = true ∧
      takes .timelineRun (ps 1 [8]) idle = true ∧ (ps 1 [8]).payload ≠ [] ∧ 7 < fieldNat (ps 1 [8]).payload 0 1 ∧
      takes .timelineRun (ps 1 []) idle = true ∧ (ps 1 []).payload = [] ∧ takes .timelineRun (ps 1 [7]) idle = true ∧
      fieldNat (ps 1 [7]).payload 0 1 ≤ 7 ∧ idle.timelines[(1 : Fin 4)].state = .stopped ∧
      (timed committing).timelines[(1 : Fin 4)].state = .stepping ∧
      takes .timelineRun (ps 1 [7]) (timed { committing with state := .stopping }) = true ∧
      takes .timelineStop (ps 1 []) (timed { Timeline.reset with state := .armed }) = true ∧ 4 ≤ (ps 4 []).arg.toNat ∧
      takes .timelineStop (ps 4 []) idle = true ∧ takes .timelineRun (ps 4 []) idle = true ∧
      takes .timelineSteps (ps 4 [1]) idle = true := by decide +kernel

theorem witness_legal_timelines :
    Timeline.reset.legal ∧ committing.legal ∧ { committing with k := 14, state := .stopping }.legal ∧
      { Timeline.reset with state := .armed, counter := 15, s := 24 }.legal ∧
      { Timeline.reset with state := .armed, counter := 1, reverse := true, rate := 0 }.legal ∧
      { Timeline.reset with state := .armed, counter := 1, reverse := true, rate := 0, s := 1 }.legal ∧ Blink.reset.legal := by
  refine ⟨?_, ?_, ?_, ?_, ?_, ?_, ?_⟩ <;>
    simp [Timeline.legal, Blink.legal, Timeline.reset, Blink.reset, committing, Timeline.moving]

theorem witness_TimelineCommitMoves :
    committing.legal ∧ (timed committing).timelines[(1 : Fin 4)] = committing ∧ committing.moving = true ∧
      committing.k + 1 = committing.period ∧ FramePart.timeline 1 ∉ (timed committing).ahead :=
  ⟨witness_legal_timelines.2.1, by decide +kernel, by decide, by decide, by decide +kernel⟩

theorem witness_FrameStartStepsTimelines :
    (let v : Timeline := { Timeline.reset with state := .armed, counter := 15, s := 24 }
     v.state = .armed ∧ v.counter ≠ 0 ∧ v.reverse = false ∧ v.s + 1 = v.span) ∧
      (let v : Timeline := { Timeline.reset with state := .armed, counter := 1, reverse := true, rate := 0 }
       v.reverse = true ∧ v.s = 0) ∧
      (let v : Timeline := { Timeline.reset with state := .armed, counter := 1, reverse := true, rate := 0, s := 1 }
       v.state = .armed ∧ v.counter ≠ 0 ∧ ¬(v.reverse = false ∧ v.s + 1 = v.span ∨ v.reverse = true ∧ v.s = 0)) ∧
      (let v : Timeline := { committing with k := 14, state := .stopping }
       v.moving = true ∧ v.k + 1 < v.period) ∧
      Timeline.reset.state = .stopped ∧ FramePart.timeline 1 ∉ idle.ahead := by decide +kernel

/-- The two ends of the range of the travel. -/
theorem witness_TravelRisesTo256 :
    travel 1 1 = 256 ∧ travel 64 1 = 4 ∧ travel 64 63 = 252 ∧ travel 64 64 = 256 ∧ travel 64 65 = 256 := by
  decide +kernel

theorem witness_TimelinesLegalKept :
    (∀ n : Fin 4, State.reset.timelines[n].legal) ∧ (∀ b : Fin 4, State.reset.blinks[b].legal) ∧
      ∃ t, step State.reset = .next t := by
  refine ⟨fun n => ?_, fun b => ?_, ⟨_, rfl⟩⟩
  · have h : State.reset.timelines[n] = Timeline.reset := by
      revert n
      decide +kernel
    rw [h]
    exact witness_legal_timelines.1
  · have h : State.reset.blinks[b] = Blink.reset := by
      revert b
      decide +kernel
    rw [h]
    exact witness_legal_timelines.2.2.2.2.2.2

theorem witness_BlinkGeneratorsCycle :
    takes .blinkSet (ps 3 [255, 255, 1]) idle = true ∧ (ps 3 [255, 255, 1]).arg.toNat = (3 : Fin 4).val ∧
      takes .blinkSet (ps 4 [255, 255, 1]) idle = true ∧ 4 ≤ (ps 4 [255, 255, 1]).arg.toNat ∧
      (let b : Blink := ⟨true, 254, 255, 254, some (2, 1), false, none⟩
       let s := idle.setBlink 3 b
       s.blinks[(3 : Fin 4)] = b ∧ b.enabled = true ∧ b.counter + 1 = b.period ∧ FramePart.blink 3 ∉ s.ahead) := by
  decide +kernel

theorem witness_BlinkGeneratorsCycle_legal : Blink.legal ⟨true, 254, 255, 254, some (2, 1), false, none⟩ ∧
    Blink.legal ⟨true, 0, 10, 1, none, true, some 2970000⟩ ∧ Blink.legal ⟨false, 0, 2, 1, none, true, none⟩ := by
  simp [Blink.legal]

/-! ### A record and a directory that pass their checks -/

theorem beNat_bytes2 (n : Nat) (h : n < 65536) : beNat (bytes2 n) = n := by
  simp only [bytes2, byteOf, beNat, List.foldl, BitVec.toNat_ofNat]
  omega

theorem combine_xor_self (n : Nat) (l : List Byte) (h : l.length = n) :
    combine (fun x y => x ^^^ y) (List.replicate n 0xFF) (l.map (fun b => 0xFF ^^^ b)) = l := by
  induction l generalizing n with
  | nil => subst h; rfl
  | cons b rest ih =>
    subst h
    rw [List.length_cons, List.replicate_succ, List.map_cons, combine, ih _ rfl, ← BitVec.xor_assoc, BitVec.xor_self,
      BitVec.zero_xor]

/-- What an erased flash delivers under the bit errors that turn it into `l`. -/
theorem transfer_erased (c : Chart) (a : Nat) (l : List Byte) (h : c.flash = []) :
    c.transfer a l.length (l.map (fun b => 0xFF ^^^ b)) = l := by
  have e : c.bytes a l.length = List.replicate l.length 0xFF := by
    unfold Chart.bytes Chart.byte
    rw [h, List.eq_replicate_iff]
    refine ⟨by simp, ?_⟩
    intro b hb
    simp only [List.mem_map] at hb
    obtain ⟨i, -, rfl⟩ := hb
    rfl
  unfold Chart.transfer
  rw [e]
  exact combine_xor_self _ l rfl

/-- A tile record for tile 0: an all-land mask and no polylines. -/
def landBody : List Byte := [0, 0] ++ List.replicate 2048 0xFF ++ [0]
def landRecord : List Byte := landBody ++ bytes2 (crc16 landBody).toNat

theorem landBody_length : landBody.length = 2051 := by simp [-List.reduceReplicate, landBody]
theorem landRecord_length : landRecord.length = 2053 := by simp [-List.reduceReplicate, landRecord, landBody_length, bytes2]

theorem landRecord_decodes : decodeRecord 0 landRecord = some ⟨List.replicate 2048 0xFF, []⟩ := by
  have hl := landRecord_length
  have hb := landBody_length
  have h0 : fieldNat landRecord 0 1 = 0 := by
    simp [-List.reduceReplicate, fieldNat, fieldBytes, landRecord, landBody, beNat]
  have h1 : fieldNat landRecord 1 1 = 0 := by
    simp [-List.reduceReplicate, fieldNat, fieldBytes, landRecord, landBody, beNat]
  have h2 : fieldNat landRecord 2050 1 = 0 := by
    simp [-List.reduceReplicate, fieldNat, fieldBytes, landRecord, landBody, beNat]
  have h3 : landRecord.drop 2051 = bytes2 (crc16 landBody).toNat := by
    unfold landRecord
    rw [← hb, List.drop_left]
  have h4 : landRecord.take (landRecord.length - 2) = landBody := by
    rw [hl]
    unfold landRecord
    rw [show 2053 - 2 = landBody.length by rw [hb], List.take_left]
  have h5 : fieldBytes landRecord 2 2048 = List.replicate 2048 0xFF := by
    simp [-List.reduceReplicate, fieldBytes, landRecord, landBody]
  unfold decodeRecord
  rw [h0, h1, h2, h3, h4, h5]
  simp only [parsePolylines]
  rw [beNat_bytes2 _ (crc16 landBody).isLt]
  simp [-List.reduceReplicate, bytes2]

/-- A directory of 256 tiles of open sea. -/
def seaBody : List Byte := [0x5A, 0x3C, 0x0F, 0x96] ++ List.replicate 1536 0
def seaDirectory : List Byte := seaBody ++ bytes2 (crc16 seaBody).toNat

theorem seaBody_length : seaBody.length = 1540 := by simp [-List.reduceReplicate, seaBody]
theorem seaDirectory_length : seaDirectory.length = 1542 := by simp [-List.reduceReplicate, seaDirectory, seaBody_length, bytes2]

theorem records_zero (n : Nat) (t : List Byte) :
    records 6 n (List.replicate (6 * n) 0 ++ t) = List.replicate n (List.replicate 6 0) := by
  induction n with
  | zero => rfl
  | succ k ih =>
    rw [show 6 * (k + 1) = 6 + 6 * k by omega, List.replicate_add, List.append_assoc]
    unfold records
    rw [List.take_left' (by simp), List.drop_left' (by simp), ih]
    rfl

theorem seaDirectory_parses : parseDirectory seaDirectory = some (List.replicate 256 ⟨0, 0, false⟩) := by
  have hb := seaBody_length
  have h0 : fieldNat seaDirectory 0 4 = formatMark := by
    simp [-List.reduceReplicate, fieldNat, fieldBytes, seaDirectory, seaBody, beNat, formatMark]
  have h1 : fieldNat seaDirectory 1540 2 = (crc16 seaBody).toNat := by
    unfold fieldNat fieldBytes seaDirectory
    rw [← hb, List.drop_left]
    exact beNat_bytes2 _ (crc16 seaBody).isLt
  have h2 : seaDirectory.take 1540 = seaBody := by
    unfold seaDirectory
    rw [← hb, List.take_left]
  have h3 : directoryEntries seaDirectory = List.replicate 256 ⟨0, 0, false⟩ := by
    unfold directoryEntries seaDirectory seaBody
    rw [List.append_assoc, List.drop_left' (by rfl), show 1536 = 6 * 256 by rfl, records_zero, List.map_replicate]
    rfl
  unfold parseDirectory
  rw [h0, h1, h2, h3]
  simp [-List.reduceReplicate, DirEntry.good]

/-! ### Witnesses: evaluation and the render job -/

/-- The ends of the weight, and an exact half. -/
theorem witness_BlendIsTheRoundedValue :
    (0 : Nat) ≤ 256 ∧ (256 : Nat) ≤ 256 ∧ blend 7 8 0 = 7 ∧ blend 7 8 256 = 8 ∧ blend 7 8 128 = 8 := by decide

theorem witness_SectorsAndMagnitude : (0 : Int) < 1 ∧ sectorOf 1 1 = some 4 ∧ sectorOf (-1) (-1) = some 20 := by decide

/-- A magnitude of 24 is calm, one of 25 is not, one of 1475 has the greatest speed; a stream at, below and above the limits. -/
theorem witness_GlyphRecordsFollowTheVector :
    barbGlyph 24 0 = .calm ∧ barbGlyph 25 0 = .wind 24 0 0 1 ∧ barbGlyph 0 1475 = .wind 16 3 0 0 ∧
      barbGlyph 0 1474 = .wind 16 2 4 1 ∧ arrowGlyph 49 0 40 50 = .slack ∧ arrowGlyph 0 0 40 0 = .slack ∧
      arrowGlyph 50 0 1 50 = .flowing 8 6 false ∧ arrowGlyph 60 0 255 50 = .flowing 8 59 false ∧
      arrowGlyph 61 0 255 50 = .flowing 8 60 false ∧ arrowGlyph 62 0 255 50 = .flowing 8 60 true := by decide +kernel

/-- The last point of a grid of two nodes each way, and the ends of the shade index. -/
theorem witness_ShadingStaysInRange :
    (let g : Geometry := ⟨.tide, 0, 0, 16, 2, 2, 1⟩
     g.valid = true ∧ g.cell 16 0 = some ⟨0, 256, 0, 0⟩ ∧
       ∀ i, i < 2 → ∀ j, j < 2 → (Bank.cleared []).nodeNow g ⟨0, 0, 0⟩ i j 0 = 0) ∧
      shadeIndex 2000 (-1000) 1 31 = 31 ∧ shadeIndex (-1000) 2000 500 0 = 0 ∧ shadeIndex 2000 (-1000) 1 0 = 15 := by
  decide +kernel

theorem witness_DrawingStaysInTheWindow :
    (small []).view.accepted = true ∧ (small []).view.inWindow 15 15 = true ∧ (small []).view.inWindow 16 15 = false ∧
      (aJob [] 0 none).record.view.accepted = true ∧ Mem.wf pixelDefault ([] : Mem Nat) = true ∧
      DrawItem.land 0 0 coastLayer ≠ .background ∧ (aJob [] 0 none).record.view.inWindow 1919 1079 = false := by
  decide +kernel

/-- A READY buffer, with or without a front buffer. -/
def readyA : Render := { Render.reset with bufferA := ⟨.ready, some 2, []⟩ }
def readyB : Render := { Render.reset with bufferA := ⟨.front, none, []⟩, bufferB := ⟨.ready, some 2, []⟩ }

theorem witness_FrameStartRunsTheRenderer :
    (readyA.legal ∧ readyB.legal ∧ (busy [] 0 none).render.legal ∧ Render.reset.legal) ∧
      (busy [] 0 none).render.hasReady = false ∧ readyA.bufferA.role = .ready ∧ readyB.bufferB.role = .ready ∧
      (busy [] 0 none).render.job = some (aJob [] 0 none) ∧ idle.render = Render.reset ∧ idle.render.job = none ∧
      idle.pages.loaded = none ∧ paged.render = Render.reset ∧ paged.pages.loaded = some 2 ∧
      paged.pages.pages[(2 : Fin 16)] = some (small []) ∧ readyB.hasReady = true ∧ (readyB.buffer .a).role = .front ∧
      ({ readyB with late := true } : Render).late = true := by decide +kernel

theorem witness_JobCompletesReady :
    (busy [] 1 none).render.job = some (aJob [] 1 none) ∧ (aJob [] 1 none).fetching = none ∧
      ((aJob [] 1 none).items (busy [] 1 none).store.lists).length ≤ (aJob [] 1 none).drawn ∧
      (busy [] 1 none).render.deferred = [] ∧ (∀ l ∈ [Link.forecast, .studio], ((busy [] 1 none).port l).holds .cacheRestore = false) ∧
      (let s := busy [] 1 none
       (s.setRender { s.render with deferred := [.symbol 0 []] }).render.deferred = [.symbol 0 []]) ∧
      (((busy [] 1 none).setPort .studio { Port.reset with slot := some (held .cacheRestore) }).port .studio).holds
        .cacheRestore = true := by decide +kernel

/-- The job waits for tile 0, whose record an erased flash would not give. -/
def fetching : State := busy [.coast coastLayer] 1 (some 0)

theorem fetching_waits :
    fetching.fetchingFor (aJob [.coast coastLayer] 1 (some 0)) (.land 0 0 coastLayer) (.land 0 0 0) := by
  refine ⟨rfl, rfl, ?_, ?_, rfl, rfl, rfl⟩ <;> decide +kernel

theorem witness_FetchThatPasses :
    ∃ noise d, fetching.fetchingFor (aJob [.coast coastLayer] 1 (some 0)) (.land 0 0 coastLayer) (.land 0 0 0) ∧
      fetching.chart.fetched (TileRequest.land 0 0 0).tile noise = some d ∧ fetching.fault.mode = .normal ∧
      (fetching.setFault { FaultUnit.reset with mode := .bypass }).fault.mode = .bypass ∧
      fetching.chart.reading = false ∧
      (let u := (busy [] 1 none).setChart { (busy [] 1 none).chart with op := some (.read 0 1) }
       u.chart.reading = true ∧ u.chart.port = none ∧ u.render.fetchWaits = false) := by
  refine ⟨landRecord.map (fun b => 0xFF ^^^ b), ⟨List.replicate 2048 0xFF, []⟩, fetching_waits, ?_, rfl, rfl, rfl, rfl, rfl, rfl⟩
  show decodeRecord 0 (fetching.chart.transfer 1542 2053 _) = _
  rw [← landRecord_length, transfer_erased _ _ _ rfl]
  exact landRecord_decodes

/-- A cache with a gap at entry 3, and a full one in which entry 5 has the earliest stamp. -/
def gapCache : Vector (Option CacheEntry) 64 := Vector.ofFn fun i => if i = 3 then none else some ⟨i.val, ⟨[], []⟩, true, i.val⟩
def fullCache : Vector (Option CacheEntry) 64 :=
  Vector.ofFn fun i => some ⟨i.val, ⟨[], []⟩, true, if i = 5 then 0 else i.val + 1⟩

theorem witness_FetchThatPasses_cache :
    (gapCache[(3 : Fin 64)] = none ∧ ∀ k : Fin 64, k < 3 → gapCache[k] ≠ none) ∧
      fullCache[(5 : Fin 64)] = some ⟨5, ⟨[], []⟩, true, 0⟩ ∧
      ∀ k : Fin 64, k ≠ 5 → ((fullCache[k].map fun x => decide (0 < x.stamp)) = some true) := by decide +kernel

/-- The suspect list with 7 and 8 tiles, and the bad tile list with 31 and 32. -/
theorem witness_FetchThatFails :
    fetching.nothingWaits ∧
    fetching.fetchingFor (aJob [.coast coastLayer] 1 (some 0)) (.land 0 0 coastLayer) (.land 0 0 0) ∧
      fetching.chart.fetched 0 [] = none ∧ 0 ∉ fetching.chart.suspect ∧ fetching.chart.suspect.length < 8 ∧
      (let full := fetching.setChart { fetching.chart with suspect := [1, 2, 3, 4, 5, 6, 7, 8] }
       full.chart.fetched 0 [] = none ∧ 8 ≤ full.chart.suspect.length ∧ full.chart.bad.length < 32) ∧
      (let full := fetching.setChart { fetching.chart with suspect := [0], bad := (List.range 33).drop 1 }
       full.chart.fetched 0 [] = none ∧ 0 ∈ full.chart.suspect ∧ 32 ≤ full.chart.bad.length) := by
  refine ⟨⟨rfl, fun l => by cases l <;> rfl⟩, fetching_waits, ?_⟩
  decide +kernel

theorem witness_ParityErrorRefetches :
    let base := busy [.coast coastLayer] 1 none
    let s := base.setChart { base.chart with cache := base.chart.cache.set 63 (some ⟨0, ⟨[], []⟩, true, 4⟩) }
    let j := aJob [.coast coastLayer] 1 none
    s.render.job = some j ∧ j.fetching = none ∧
      ((j.items s.store.lists).drop j.drawn).head? = some (.land 0 0 coastLayer) ∧
      j.request (.land 0 0 coastLayer) = some (.land 0 0 0) ∧ (TileRequest.land 0 0 0).tile = (0 : Fin 256).val ∧
      s.chart.quickAnswer (.land 0 0 0) = none ∧ s.fault.mode = .normal ∧ (cacheIndex s.chart.cache 0).isSome = true ∧
      s.chart.port = none ∧
      (⟨some ⟨.soft, .cacheParity, some 1, 0⟩, false, .normal⟩ : FaultUnit).escalates .cacheParity = true := by
  decide +kernel

theorem witness_CacheRestoreFlushes :
    takes .cacheRestore (pf 0 []) idle = true ∧ idle.render.job = none ∧
      takes .cacheRestore (ps 0 []) (busy [] 0 none) = true ∧ (busy [] 0 none).render.job ≠ none ∧
      ((ported .forecast { Port.reset with slot := some (held .cacheRestore) }).port .forecast).holds .cacheRestore = true ∧
      (ported .forecast { Port.reset with slot := some (held .cacheRestore) }).render.job = none := by decide +kernel

theorem witness_BufferRolesKept : State.reset.render.legal ∧ (busy [] 0 none).render.legal ∧ ∃ t, step (busy [] 0 none) = .next t :=
  ⟨by decide +kernel, by decide +kernel, ⟨_, rfl⟩⟩

/-! ### Witnesses: faults, flash, links and memos -/

/-- A held fault record of each severity. -/
def softFault : FaultRecord := ⟨.soft, .cacheParity, some 7, 3⟩
def hardFault : FaultRecord := ⟨.hard, .tileBad, some 7, 3⟩

theorem witness_FaultRecordFollowsTable :
    FaultUnit.reset.record = none ∧ (⟨some softFault, false, .normal⟩ : FaultUnit).record = some softFault ∧
      softFault.severity = .soft ∧ hardFault.severity = .hard ∧ FaultKind.tileCheck.severity = .hard ∧
      FaultKind.cacheParity.severity = .soft ∧ takes .faultRead (pf 0 []) idle = true := by decide +kernel

/-- The state `idle` with a held HARD fault. -/
def faulted : State := idle.setFault ⟨some hardFault, false, .normal⟩

theorem witness_HardFaultIsKept :
    faulted.fault.record = some hardFault ∧ hardFault.severity = .hard ∧
      (∀ p rest, (faulted.withPending [.jobComplete]).pending ≠ .faultRead p :: rest) ∧
      (∀ high rest, (faulted.withPending [.jobComplete]).pending ≠ .powerOnReset high :: rest) ∧
      (∃ t, step (faulted.withPending [.jobComplete]) = .next t) ∧ ∃ t, step faulted = .next t := by
  refine ⟨rfl, rfl, fun p rest h => ?_, fun high rest h => ?_, ⟨_, rfl⟩, ⟨_, rfl⟩⟩
  · cases h
  · cases h

/-- The last bytes, the last page and the last sector of the flash, and the first beyond each. -/
theorem witness_FlashCommandsAccepted :
    takes .flashRead (pf 0 [0, 0xFF, 0xFF, 0, 1, 0]) idle = true ∧ 16776960 + 256 ≤ 16777216 ∧
      takes .flashRead (pf 0 [0, 0xFF, 0xFF, 1, 1, 0]) idle = true ∧ ¬(16776961 + 256 ≤ 16777216) ∧
      takes .flashRead (pf 0 [0, 0, 0, 0, 0, 0]) State.reset = true ∧ State.reset.chart.op ≠ none ∧
      takes .flashProgram (pf 0 ([0, 0xFF, 0xFF, 0] ++ List.replicate 256 0)) idle = true ∧ idle.pages.loaded = none ∧
      idle.chart.op = none ∧ paged.chart.op = none ∧ paged.pages.loaded ≠ none ∧
      takes .flashErase (pf 0 [0, 255]) idle = true ∧ takes .flashErase (pf 0 [1, 0]) idle = true ∧
      takes .chartRescan (pf 0 []) paged = true ∧ takes .chartRescan (pf 0 []) idle = true ∧
      takes .chartRescan (pf 0 []) State.reset = true := by decide +kernel

theorem witness_FlashChangesItsPageOrSector :
    let page : List Byte := List.replicate 256 0xA5
    let s := idle.setChart { idle.chart with op := some (.program 16776960 page) }
    s.chart.op = some (.program 16776960 page) ∧ page.length = 256 ∧ s.chart.port ≠ some .fetch ∧
      Mem.wf flashDefault s.chart.flash = true ∧
      (let t := after (.flashProgramComplete [0, 0x5A]) s
       t.chart.byte (16776960 + 1) ≠ page.getD 1 0 ∧ t.chart.byte (16776960 + 0) = page.getD 0 0) ∧
      (idle.setChart { idle.chart with op := some (.erase 255) }).chart.op = some (.erase 255) := by decide +kernel

theorem witness_ReadAndScanComplete :
    (let s := idle.setChart { idle.chart with op := some (.read 16776960 256), port := some .read }
     s.chart.op = some (.read 16776960 256) ∧ s.chart.port = some .read) ∧
      State.reset.chart.op = some (.rescan false) ∧ State.reset.chart.port ≠ some .fetch ∧
      (idle.setChart { idle.chart with op := some (.rescan true) }).chart.op = some (.rescan true) := by decide +kernel

/-- A scan of an erased flash finds a bad directory, and one whose transfer gives `seaDirectory` a good one. -/
theorem witness_ReadAndScanComplete_directories :
    parseDirectory (List.replicate 1542 0xFF) = none ∧
      ∃ noise d, parseDirectory (State.reset.chart.transfer 0 1542 noise) = some d := by
  refine ⟨by decide +kernel, seaDirectory.map (fun b => 0xFF ^^^ b), List.replicate 256 ⟨0, 0, false⟩, ?_⟩
  rw [← seaDirectory_length, transfer_erased _ _ _ rfl]
  exact seaDirectory_parses

theorem witness_HeaderCodeCorrectsOneError : (0 : Nat) < 32 ∧ (31 : Nat) < 32 ∧ (0 : Nat) ≠ 31 := by decide

/-- A port in HEADER. -/
def inHeader : State := ported .forecast { Port.reset with rx := .header, packet := some ⟨[], none⟩ }

theorem witness_ReceiverFindsPackets :
    (idle.port .studio).held = false ∧ (idle.port .studio).rx = .hunting ∧ (inHeader.port .forecast).held = false ∧
      (inHeader.port .forecast).rx ≠ .hunting ∧ (inHeader.port .forecast).rx = .header ∧
      (let w := encodeHeader ⟨false, 1, 0, 1025, 0⟩
       decodeHeader w = .good w ∧ 1024 < (headerFields w).length.toNat ∧
         decodeHeader (invertPosition w 0) = .corrected w ∧
         decodeHeader (invertPosition (invertPosition w 0) 31) = .lost) ∧
      (let w := encodeHeader ⟨true, 1, 0, 1024, 0⟩
       decodeHeader w = .good w ∧ (headerFields w).length.toNat ≤ 1024 ∧ (headerFields w).away = true) ∧
      (let w := encodeHeader ⟨false, 1, 0, 1024, 0⟩
       decodeHeader w = .good w ∧ (headerFields w).length.toNat ≤ 1024 ∧ (headerFields w).away = false) ∧
      (headerFields (encodeHeader ⟨false, 1, 0, 0, 0⟩)).length = 0 ∧ (ps 0 []).payload.length ≤ 1024 ∧
      ((ported .studio { Port.reset with held := true }).port .studio).held = true ∧ (idle.port .studio).packet = none ∧
      (let w := encodeHeader ⟨false, 1, 5, 0, 0⟩
       let s := after (.headerReceived .studio w) (after (.startByte .studio) idle)
       (s.port .studio).rx ≠ .header ∧ (s.port .studio).packet = some ⟨headerBytes w, some ⟨false, 1, 5, 0, 0⟩⟩) := by
  decide +kernel

theorem witness_LineFaultsResetTheReceiver :
    (inHeader.port .forecast).held = false ∧ (inHeader.port .forecast).rx ≠ .hunting ∧
      ((ported .studio { Port.reset with held := true }).port .studio).held = true := by decide +kernel

/-- A port with a command in its slot, a packet in transmission and the given queue. -/
def answering (queue : List TxPacket) : Port :=
  { Port.reset with slot := some (held .status), tx := some aReply, queue := queue }

theorem witness_TransmitQueueKeepsItsOrder :
    ((ported .studio (answering [aNotice, aReply])).port .studio).tx ≠ none ∧
      ([aNotice, aReply] : List TxPacket) = [aNotice] ++ aReply :: [] ∧ aReply.isNotice = false ∧ aNotice.isNotice = true ∧
      (answering []).answers (held .status) ∧ (answering (List.replicate 7 aReply)).queue.length < 8 ∧
      (answering (List.replicate 7 aReply ++ [aNotice])).answers (held .status) ∧
      8 ≤ (answering (List.replicate 7 aReply ++ [aNotice])).queue.length ∧
      (∀ y ∈ (answering (List.replicate 8 aReply)).queue, y.isNotice = false) ∧
      8 ≤ (answering (List.replicate 8 aReply)).queue.length ∧
      ({ answering [] with suppressed := true } : Port).suppressed = true ∧ (answering []).tx.isSome = true ∧
      (let p : Port := { Port.reset with slot := some (held .status) }
       p.held = false ∧ p.tx = none ∧ p.queue = [] ∧ p.slot = some (held .status) ∧ p.suppressed = false) := by
  decide +kernel

theorem witness_PortRefusesInOrder :
    (let s := ported .studio { Port.reset with slot := some (held .panic) }
     (s.port .studio).completes Kind.status.code (ps 0 []) = true ∧ (s.port .studio).slot ≠ none) ∧
      (idle.port .studio).completes Kind.panic.code (ps 0 [1]) = true ∧ (idle.port .studio).completes 0 (ps 0 []) = true ∧
      ((ported .studio { Port.reset with held := true }).port .studio).completes 0 (ps 0 []) = false ∧
      (idle.port .studio).slot = none ∧ Kind.gridStatus.permitted (ps 0 []).link = false ∧
      Kind.panic.permitted (ps 0 [1]).link = true ∧ lengthPermitted .panic (ps 0 [1]) idle = false ∧
      (let p : Packet := { ps 0 [0, 1] with crc := 0 }
       Kind.take.permitted p.link = true ∧ lengthPermitted .take p idle = true ∧ p.payload ≠ [] ∧ crc16 p.payload ≠ p.crc) ∧
      crc16 (ps 0 [0, 1]).payload = (ps 0 [0, 1]).crc ∧ (ps 0 []).payload = [] ∧ kindOfCode 0 = none ∧
      kindOfCode 0x7F = none := by decide +kernel

theorem witness_StatusAndEchoAnswer :
    takes .status (pf 0 []) idle = true ∧ idle.ahead = [] ∧ takes .echo (ps 0 []) idle = true ∧
      takes .echo (ps 0 [1, 2]) idle = true ∧ takes .status (pf 0 []) (idle.markAhead .generator) = true ∧
      (idle.markAhead .generator).ahead ≠ [] := by decide +kernel

theorem witness_MemoCommandsActOnTheirSlot :
    takes .memoPost (pf 0 [0, 0, 9]) idle = true ∧ idle.memoSlot (postSlot .forecast) = none ∧
      takes .memoPost (ps 0 [0x0B, 0xB9, 9]) (idle.setMemoSlot .studioToForecast (some ⟨[1], none⟩)) = true ∧
      (idle.setMemoSlot .studioToForecast (some ⟨[1], none⟩)).memoSlot (postSlot .studio) ≠ none ∧
      takes .memoTake (pf 0 []) idle = true ∧
      (idle.setMemoSlot .studioToForecast (some ⟨[1], none⟩)).memoSlot (takeSlot .forecast) = some ⟨[1], none⟩ ∧
      takes .memoWithdraw (ps 0 []) idle = true ∧
      (idle.setMemoSlot .forecastToStudio (some ⟨[1], some 1⟩)).memoSlot .forecastToStudio = some ⟨[1], some 1⟩ ∧
      FramePart.memo .forecastToStudio ∉ idle.ahead ∧ idle.memoSlot .forecastToStudio = none ∧
      (idle.setMemoSlot .forecastToStudio (some ⟨[1], some 2⟩)).memoSlot .forecastToStudio = some ⟨[1], some 2⟩ := by decide +kernel

end Sys2Proof.Tests
end

section
/-! The facts that the statements of the scope family share: taken packets, index arguments, replies, and one entry of a vector after a
write of the state. -/

namespace Sys2Proof.Machine

/-! ### A packet that is taken -/

/-- A packet command whose packet is taken is its owner's action on the taken packet's state (R162). -/
theorem exec_of_takes {i : Instr} {k : Kind} {p : Packet} {s : State} {own : Packet → State → State}
    (hi : exec i s = .next (serve k p own s)) (h : takes k p s = true) : exec i s = .next (own p (s.taken k p)) := by
  rw [hi, serve_taken own h]

/-! ### Index arguments (R2) -/

theorem indexOf_eq_none {n x : Nat} (h : n ≤ x) : indexOf n x = none := dif_neg (Nat.not_lt.2 h)

theorem indexOf_eq_some {n x : Nat} {i : Fin n} (h : x = i.val) : indexOf n x = some i := by
  subst h; exact dif_pos i.isLt

theorem indexOf_eq_none_iff {n x : Nat} : indexOf n x = none ↔ n ≤ x := by
  unfold indexOf; split <;> simp <;> omega

/-- A one-byte field is its byte. -/
theorem fieldNat_one (bytes : List Byte) (off : Nat) : fieldNat bytes off 1 = (fieldByte bytes off).toNat := by
  unfold fieldNat fieldBytes fieldByte
  rw [List.getD_eq_getElem?_getD]
  by_cases h : off < bytes.length
  · rw [List.drop_eq_getElem_cons h, List.getElem?_eq_getElem h]
    exact Nat.zero_add _
  · rw [List.drop_eq_nil_of_le (Nat.not_lt.1 h), List.getElem?_eq_none (Nat.not_lt.1 h)]
    rfl

/-! ### The status of a reply (R2) -/

theorem okOr_eq_or (b : Bool) : okOr b = .ok ∨ okOr b = .adjusted := by cases b <;> simp [okOr]

theorem okOr_eq_adjusted_iff (b : Bool) : okOr b = .adjusted ↔ b = true := by cases b <;> simp [okOr]

/-! ### One entry of a vector after a write of the state -/

section Entries

variable (s : State)

theorem State.setTimeline_same (n : Fin 4) (v : Timeline) : (s.setTimeline n v).timelines[n] = v := by
  simp [State.setTimeline]
theorem State.setTimeline_other {n m : Fin 4} (h : m ≠ n) (v : Timeline) :
    (s.setTimeline n v).timelines[m] = s.timelines[m] := by
  simp [State.setTimeline, Fin.val_ne_of_ne h.symm]

theorem State.setBlink_same (n : Fin 4) (v : Blink) : (s.setBlink n v).blinks[n] = v := by
  simp [State.setBlink]
theorem State.setBlink_other {n m : Fin 4} (h : m ≠ n) (v : Blink) : (s.setBlink n v).blinks[m] = s.blinks[m] := by
  simp [State.setBlink, Fin.val_ne_of_ne h.symm]

theorem State.setFieldSet_same (f : Fin 4) (v : FieldSet) : (s.setFieldSet f v).store.sets[f] = v := by
  simp [State.setFieldSet]
theorem State.setFieldSet_other {f g : Fin 4} (h : g ≠ f) (v : FieldSet) :
    (s.setFieldSet f v).store.sets[g] = s.store.sets[g] := by
  simp [State.setFieldSet, Fin.val_ne_of_ne h.symm]
@[simp] theorem State.setFieldSet_lists (f : Fin 4) (v : FieldSet) : (s.setFieldSet f v).store.lists = s.store.lists := rfl
@[simp] theorem State.setFieldSet_symbols (f : Fin 4) (v : FieldSet) :
    (s.setFieldSet f v).store.symbols = s.store.symbols := rfl

end Entries

end Sys2Proof.Machine
end

section
/-! Which blocks each command may change (O2): one frame lemma for each owner's action and each event. -/

namespace Sys2Proof.Machine

/-! ### Command handling -/

section Handling

variable {cs : List Block} {s t : State}

/-- An answer after a change of some blocks changes those and the packet's own blocks. -/
theorem Frame.answered (h : Frame cs s t) (p : Packet) (st : Status) (r : List Byte) :
    Frame (cs ++ packetBlocks p) s (t.finish p.link st r) :=
  (h.mono (by simp +contextual)).trans ((frame_finish t p.link st r).mono (by simp [packetBlocks]))

/-- An answer alone changes the packet's own blocks, whatever else the command may change. -/
theorem frame_answer (cs : List Block) (s : State) (p : Packet) (st : Status) (r : List Byte) :
    Frame (cs ++ packetBlocks p) s (s.finish p.link st r) := (Frame.refl cs s).answered p st r

/-- An owner that changes blocks and does not answer yet. -/
theorem Frame.unanswered (h : Frame cs s t) (p : Packet) : Frame (cs ++ packetBlocks p) s t :=
  h.mono (by simp +contextual)

/-- A packet command changes the packet's own blocks and those that its owner changes. -/
theorem frame_serve_owner {k : Kind} {p : Packet} {own : Packet → State → State}
    (h : ∀ t, Frame (cs ++ packetBlocks p) t (own p t)) (s : State) :
    Frame (cs ++ packetBlocks p) s (serve k p own s) :=
  frame_serve (by simp +contextual) h

end Handling

/-! ### The owners -/

section Owners

variable (p : Packet) (s : State)

theorem frame_ownNudge : Frame ([.timing] ++ packetBlocks p) s (ownNudge p s) := by
  unfold ownNudge
  split
  · exact frame_answer _ s p _ _
  · exact ((frame_setTiming s _).answered p _ _).mono (by simp [packetBlocks])

theorem frame_ownOffset : Frame ([.timing] ++ packetBlocks p) s (ownOffset p s) :=
  ((frame_setTiming s _).answered p _ _).mono (by simp [packetBlocks])

theorem frame_ownTake : Frame ([.output, .port .studio] ++ packetBlocks p) s (ownTake p s) := by
  unfold ownTake
  split
  · exact frame_answer _ s p _ _
  · exact ((((frame_setOutput s _).mono (by simp)).trans ((frame_notifyOutput _ _).mono (by simp))).answered
      (cs := [.keyEnable, .output, .port .studio]) p _ _).mono (by simp [packetBlocks])

theorem frame_ownClear : Frame ([.output, .port .studio] ++ packetBlocks p) s (ownClear p s) :=
  ((((frame_setOutput s _).mono (by simp)).trans ((frame_notifyOutput _ _).mono (by simp))).answered
    (cs := [.keyEnable, .output, .port .studio]) p _ _).mono (by simp [packetBlocks])

theorem frame_ownPanic : Frame ([.timing] ++ packetBlocks p) s (ownPanic p s) :=
  ((frame_setTiming s _).unanswered p).mono (by simp [packetBlocks])

theorem frame_ownPaletteWrite : Frame ([.output] ++ packetBlocks p) s (ownPaletteWrite p s) := by
  unfold ownPaletteWrite
  dsimp only
  split
  · exact frame_answer _ s p _ _
  · exact ((frame_setOutput s _).answered p _ _).mono (by simp [packetBlocks])

/-- The page table and the render controller written together. -/
theorem frame_setPages_setRender (t : PageTable) (r : Render) :
    Frame [.pages, .render] s ((s.setPages t).setRender r) :=
  ((frame_setPages s t).mono (by simp)).trans ((frame_setRender _ r).mono (by simp))

theorem frame_ownPageDefine : Frame ([.pages, .render] ++ packetBlocks p) s (ownPageDefine p s) := by
  unfold ownPageDefine
  dsimp only
  split
  · exact frame_answer _ s p _ _
  · split
    · exact frame_answer _ s p _ _
    · split
      · exact (frame_setPages_setRender s _ _).answered p _ _
      · exact frame_answer _ s p _ _

theorem frame_ownPageDelete : Frame ([.pages, .render] ++ packetBlocks p) s (ownPageDelete p s) := by
  unfold ownPageDelete
  dsimp only
  split
  · exact frame_answer _ s p _ _
  · split
    · exact frame_answer _ s p _ _
    · exact (frame_setPages_setRender s _ _).answered p _ _

/-- A change of the LOADED page and the key enable's drop that it may bring (R28). -/
theorem frame_setPages_dropKey (t : PageTable) (r : Render) :
    Frame [.pages, .render, .keyEnable] s ((s.setPages t).setRender r).dropKey :=
  ((frame_setPages_setRender s t r).mono (by simp)).trans ((frame_dropKey _).mono (by simp))

theorem frame_ownLoad : Frame ([.pages, .render] ++ packetBlocks p) s (ownLoad p s) := by
  unfold ownLoad
  dsimp only
  split
  · exact frame_answer _ s p _ _
  · split
    · exact frame_answer _ s p _ _
    · split
      · exact frame_answer _ s p _ _
      · exact ((frame_setPages_dropKey s _ _).answered p _ _).mono (by simp [packetBlocks])

theorem frame_ownUnload : Frame ([.pages, .render] ++ packetBlocks p) s (ownUnload p s) := by
  unfold ownUnload
  split
  · exact frame_answer _ s p _ _
  · split
    · exact frame_answer _ s p _ _
    · exact ((frame_setPages_dropKey s _ _).answered p _ _).mono (by simp [packetBlocks])

theorem frame_answerTimeline (n : Fin 4) (v : Timeline) (adjusted : Bool) :
    Frame ([.timelines] ++ packetBlocks p) s (s.answerTimeline p.link n v adjusted) :=
  (frame_setTimeline s n v).answered p _ _

theorem frame_ownTimelineSet : Frame ([.timelines] ++ packetBlocks p) s (ownTimelineSet p s) := by
  unfold ownTimelineSet
  split
  · exact frame_answer _ s p _ _
  · dsimp only
    split
    · exact frame_answer _ s p _ _
    · split
      · exact frame_answer _ s p _ _
      · exact frame_answerTimeline p s _ _ _

theorem frame_ownTimelineSteps : Frame ([.timelines] ++ packetBlocks p) s (ownTimelineSteps p s) := by
  unfold ownTimelineSteps
  split
  · exact frame_answer _ s p _ _
  · exact frame_answerTimeline p s _ _ _

theorem frame_ownTimelineRun : Frame ([.timelines] ++ packetBlocks p) s (ownTimelineRun p s) := by
  unfold ownTimelineRun
  split
  · exact frame_answer _ s p _ _
  · dsimp only
    split
    · exact frame_answerTimeline p s _ _ _
    · split
      · exact frame_answer _ s p _ _
      · exact frame_answerTimeline p s _ _ _

theorem frame_ownTimelineStop : Frame ([.timelines] ++ packetBlocks p) s (ownTimelineStop p s) := by
  unfold ownTimelineStop
  split
  · exact frame_answer _ s p _ _
  · exact frame_answerTimeline p s _ _ _

theorem frame_ownTimelineJump : Frame ([.timelines] ++ packetBlocks p) s (ownTimelineJump p s) := by
  unfold ownTimelineJump
  split
  · exact frame_answer _ s p _ _
  · dsimp only
    split
    · exact frame_answer _ s p _ _
    · exact frame_answerTimeline p s _ _ _

theorem frame_ownTimelineClear : Frame ([.timelines] ++ packetBlocks p) s (ownTimelineClear p s) := by
  unfold ownTimelineClear
  split
  · exact frame_answer _ s p _ _
  · dsimp only
    split
    · exact frame_answer _ s p _ _
    · exact frame_answerTimeline p s _ _ _

theorem frame_ownBlinkSet : Frame ([.blinks] ++ packetBlocks p) s (ownBlinkSet p s) := by
  unfold ownBlinkSet
  split
  · exact frame_answer _ s p _ _
  · exact (frame_setBlink s _ _).answered p _ _

theorem frame_ownGridDefine : Frame ([.store] ++ packetBlocks p) s (ownGridDefine p s) := by
  unfold ownGridDefine
  split
  · exact frame_answer _ s p _ _
  · split
    · exact frame_answer _ s p _ _
    · split
      · exact frame_answer _ s p _ _
      · split
        · exact (frame_setFieldSet s _ _).answered p _ _
        · exact frame_answer _ s p _ _

theorem frame_ownGridRows : Frame ([.store] ++ packetBlocks p) s (ownGridRows p s) := by
  unfold ownGridRows
  split
  · exact frame_answer _ s p _ _
  · dsimp only
    split
    · exact frame_answer _ s p _ _
    · split
      · exact frame_answer _ s p _ _
      · split
        · exact frame_answer _ s p _ _
        · split
          · exact frame_answer _ s p _ _
          · exact (frame_setFieldSet s _ _).answered p _ _

theorem frame_ownGridPublish : Frame ([.store] ++ packetBlocks p) s (ownGridPublish p s) := by
  unfold ownGridPublish
  split
  · exact frame_answer _ s p _ _
  · dsimp only
    split
    · exact frame_answer _ s p _ _
    · split
      · exact frame_answer _ s p _ _
      · split
        · exact frame_answer _ s p _ _
        · split
          · exact frame_answer _ s p _ _
          · exact (frame_setFieldSet s _ _).answered p _ _

theorem frame_ownGridStatus : Frame ([] ++ packetBlocks p) s (ownGridStatus p s) := by
  unfold ownGridStatus
  split
  · exact frame_answer _ s p _ _
  · exact frame_answer _ s p _ _

theorem frame_ownListWrite : Frame ([.store, .render, .port .forecast] ++ packetBlocks p) s (ownListWrite p s) := by
  unfold ownListWrite
  dsimp only
  split
  · split
    · exact frame_answer _ s p _ _
    · exact (frame_deferWrite s _).unanswered p
  · exact frame_answer _ s p _ _

theorem frame_ownSymbolWrite : Frame ([.store, .render, .port .forecast] ++ packetBlocks p) s (ownSymbolWrite p s) := by
  unfold ownSymbolWrite
  split
  · exact frame_answer _ s p _ _
  · exact (frame_deferWrite s _).unanswered p

theorem frame_ownFaultRead : Frame ([.fault] ++ packetBlocks p) s (ownFaultRead p s) :=
  (frame_setFault s _).answered p _ _

theorem frame_ownFlashRead : Frame ([.chart] ++ packetBlocks p) s (ownFlashRead p s) := by
  unfold ownFlashRead
  dsimp only
  split
  · exact frame_answer _ s p _ _
  · exact (frame_setChart s _).unanswered p

theorem frame_ownFlashProgram : Frame ([.chart] ++ packetBlocks p) s (ownFlashProgram p s) := by
  unfold ownFlashProgram
  dsimp only
  split
  · exact frame_answer _ s p _ _
  · exact (frame_setChart s _).unanswered p

theorem frame_ownFlashErase : Frame ([.chart] ++ packetBlocks p) s (ownFlashErase p s) := by
  unfold ownFlashErase
  dsimp only
  split
  · exact frame_answer _ s p _ _
  · exact (frame_setChart s _).unanswered p

theorem frame_ownChartRescan : Frame ([.chart, .port .forecast] ++ packetBlocks p) s (ownChartRescan p s) := by
  unfold ownChartRescan
  split
  · exact frame_answer _ s p _ _
  · exact (((frame_setChart s _).mono (by simp)).trans (frame_setStoreState _ _)).unanswered p

theorem frame_ownCacheRestore : Frame ([.chart, .fault] ++ packetBlocks p) s (ownCacheRestore p s) := by
  unfold ownCacheRestore
  split
  · exact (frame_restoreCache s p.link).mono (by simp [packetBlocks])
  · exact Frame.refl _ s

theorem frame_ownMemoPost : Frame ([.memo, .port .forecast, .port .studio] ++ packetBlocks p) s (ownMemoPost p s) := by
  unfold ownMemoPost
  dsimp only
  split
  · exact frame_answer _ s p _ _
  · exact (((frame_setMemoSlot s _ _).mono (by simp)).trans
      ((frame_notify _ _ _).mono (by cases slotReceiver (postSlot p.link) <;> simp))).answered p _ _

theorem frame_ownMemoTake : Frame ([.memo] ++ packetBlocks p) s (ownMemoTake p s) := by
  unfold ownMemoTake
  split
  · exact frame_answer _ s p _ _
  · exact (frame_setMemoSlot s _ _).answered p _ _

theorem frame_ownMemoWithdraw : Frame ([.memo] ++ packetBlocks p) s (ownMemoWithdraw p s) := by
  unfold ownMemoWithdraw
  split
  · exact frame_answer _ s p _ _
  · exact (frame_setMemoSlot s _ _).answered p _ _

end Owners

end Sys2Proof.Machine
end

section
/-! The events, and every command (O2). -/

namespace Sys2Proof.Machine

/-! ### Events -/

/-- The command leaves every block outside its list as it was. -/
def KeepsOthers (c : Instr) : Prop := ∀ s, ∃ t, exec c s = .next t ∧ Frame (touched c) s t

section Events

theorem keepsOthers_powerOnReset (high : Bool) : KeepsOthers (.powerOnReset high) := by
  refine fun s => ⟨_, rfl, fun b hb => ?_⟩
  cases b with
  | queue => rfl
  | port l => cases l <;> simp [touched] at hb
  | _ => simp [touched] at hb

theorem keepsOthers_frameStart (order : List FramePart) : KeepsOthers (.frameStart order) := fun s =>
  ⟨_, rfl, ((frame_enterFrame s).mono (by simp [touched])).trans
    (((frame_framed _).mono (by simp [touched])).trans ((frame_queueAll _ _).mono (by simp [touched])))⟩

theorem keepsOthers_referencePulse (time : Nat) : KeepsOthers (.referencePulse time) := fun s =>
  ⟨_, rfl, ((frame_advanceTo s time).mono (by simp [touched])).trans
    (((frame_setTiming _ _).mono (by simp [touched])).trans ((frame_notifyReference _ _).mono (by simp [touched])))⟩

theorem keepsOthers_decisionInstant : KeepsOthers .decisionInstant := by
  refine fun s => ⟨_, rfl, ?_⟩
  split
  · exact Frame.refl _ s
  · exact ((frame_advanceTo s _).mono (by simp [touched])).trans
      (((frame_setTiming _ _).mono (by simp [touched])).trans ((frame_notifyReference _ _).mono (by simp [touched])))

theorem keepsOthers_holdoverExpiry : KeepsOthers .holdoverExpiry := by
  refine fun s => ⟨_, rfl, ?_⟩
  split
  · exact ((frame_enterFrame s).mono (by simp [touched])).trans
      (((frame_setTiming _ _).mono (by simp [touched])).trans
        (((frame_markAhead _ _).mono (by simp [touched])).trans
          ((frame_notifyReference _ _).mono (by simp [touched]))))
  · exact Frame.refl _ s

theorem keepsOthers_nudgeApply : KeepsOthers .nudgeApply := by
  refine fun s => ⟨_, rfl, ?_⟩
  split
  · exact Frame.refl _ s
  · split
    · exact frame_enterFrame s
    · exact Frame.refl _ s

theorem keepsOthers_offsetTakesEffect : KeepsOthers .offsetTakesEffect := by
  refine fun s => ⟨_, rfl, ?_⟩
  split
  · exact Frame.refl _ s
  · exact frame_enterFrame s

theorem keepsOthers_pendingCut : KeepsOthers .pendingCut := by
  refine fun s => ⟨_, rfl, ?_⟩
  split
  · exact Frame.refl _ s
  · split
    · exact Frame.refl _ s
    · exact ((frame_enterFrame s).mono (by simp [touched])).trans
        (((frame_outputFrame _).mono (by simp [touched])).trans
          (((frame_markAhead _ _).mono (by simp [touched])).trans
            ((frame_notifyOutput _ _).mono (by simp [touched]))))

theorem keepsOthers_panicActs : KeepsOthers .panicActs := by
  refine fun s => ⟨_, rfl, ?_⟩
  split
  · exact ((frame_reachPanic s).mono (by simp [touched])).trans
      (((frame_setTiming _ _).mono (by simp [touched])).trans
        (((frame_setOutput _ _).mono (by simp [touched])).trans
          (((frame_enterDark _).mono (by simp [touched])).trans
            (((frame_notifyOutput _ _).mono (by simp [touched])).trans
              ((frame_finish _ _ _ _).mono (by simp [touched]))))))
  · exact Frame.refl _ s

theorem keepsOthers_flip (f : Fin 4) : KeepsOthers (.flip f) := by
  refine fun s => ⟨_, rfl, ?_⟩
  split
  · exact ((frame_enterFrame s).mono (by simp [touched])).trans
      (((frame_timelinesAhead _ _).mono (by simp [touched])).trans
        (((frame_setFieldSet _ _ _).mono (by simp [touched])).trans
          (((frame_markAhead _ _).mono (by simp [touched])).trans
            ((frame_notifyAll _ _ _).mono (by simp [touched])))))
  · exact Frame.refl _ s

theorem keepsOthers_timelineCommit (n : Fin 4) : KeepsOthers (.timelineCommit n) := by
  refine fun s => ⟨_, rfl, ?_⟩
  split
  · exact ((frame_enterFrame s).mono (by simp [touched])).trans
      ((frame_handleTimeline _ n).mono (by simp [touched]))
  · exact Frame.refl _ s

theorem keepsOthers_blinkCycleEnd (n : Fin 4) : KeepsOthers (.blinkCycleEnd n) := by
  refine fun s => ⟨_, rfl, ?_⟩
  split
  · exact ((frame_enterFrame s).mono (by simp [touched])).trans
      (((frame_setBlink _ _ _).mono (by simp [touched])).trans ((frame_markAhead _ _).mono (by simp [touched])))
  · exact Frame.refl _ s

theorem keepsOthers_memoExpiry (d : MemoDir) : KeepsOthers (.memoExpiry d) := by
  refine fun s => ⟨_, rfl, ?_⟩
  split
  · exact ((frame_enterFrame s).mono (by simp [touched])).trans
      (((frame_setMemoSlot _ _ _).mono (by simp [touched])).trans
        (((frame_markAhead _ _).mono (by simp [touched])).trans ((frame_notify _ _ _).mono (by simp [touched]))))
  · exact Frame.refl _ s

theorem keepsOthers_tileFetchComplete (noise : List Byte) : KeepsOthers (.tileFetchComplete noise) := by
  refine fun s => ⟨_, rfl, ?_⟩
  dsimp only
  split
  · rename_i j it r _ _
    have fetched (v : Chart) : Frame (touched (.tileFetchComplete noise)) s ((s.runJob.endFetch r noise).1.setChart v) :=
      ((frame_runJob s).mono (by simp [touched])).trans
        (((frame_endFetch _ r noise).mono (by simp [touched])).trans ((frame_setChart _ v).mono (by simp [touched])))
    split
    · exact (fetched _).trans
        (((frame_settle _ j it _).mono (by simp [touched])).trans ((frame_afterFetch _).mono (by simp [touched])))
    · exact (fetched _).trans
        (((frame_discardJob _ j _).mono (by simp [touched])).trans ((frame_afterFetch _).mono (by simp [touched])))
  · exact Frame.refl _ s

theorem keepsOthers_jobComplete : KeepsOthers .jobComplete := by
  refine fun s => ⟨_, rfl, ?_⟩
  dsimp only
  split
  · exact ((frame_runJob s).mono (by simp [touched])).trans ((frame_completeJob _ _).mono (by simp [touched]))
  · exact Frame.refl _ s

theorem keepsOthers_cacheHitParityError (tile : Fin 256) : KeepsOthers (.cacheHitParityError tile) := by
  refine fun s => ⟨_, rfl, ?_⟩
  dsimp only
  split
  · split
    · exact ((frame_setChart s _).mono (by simp [touched])).trans ((frame_runJob _).mono (by simp [touched]))
    · exact (frame_setChart s _).mono (by simp [touched])
  · exact Frame.refl _ s

theorem keepsOthers_deferredWriteApply : KeepsOthers .deferredWriteApply := by
  refine fun s => ⟨_, rfl, ?_⟩
  split
  · exact frame_applyDeferred s
  · exact Frame.refl _ s

theorem keepsOthers_cacheRestoreApply (l : Link) : KeepsOthers (.cacheRestoreApply l) := by
  refine fun s => ⟨_, rfl, ?_⟩
  split
  · exact frame_applyRestore s l
  · exact Frame.refl _ s

theorem keepsOthers_flashReadComplete (noise : List Byte) : KeepsOthers (.flashReadComplete noise) := by
  refine fun s => ⟨_, rfl, ?_⟩
  split
  · exact ((frame_setChart s _).mono (by simp [touched])).trans ((frame_finish _ _ _ _).mono (by simp [touched]))
  · exact Frame.refl _ s

theorem keepsOthers_flashProgramComplete (fails : List Byte) : KeepsOthers (.flashProgramComplete fails) := by
  refine fun s => ⟨_, rfl, ?_⟩
  dsimp only
  split
  · split
    · exact Frame.refl _ s
    · split
      · exact (frame_flashChanged s _).trans ((frame_finish _ _ _ _).mono (by simp))
      · exact (frame_flashChanged s _).trans ((frame_finish _ _ _ _).mono (by simp))
  · exact Frame.refl _ s

theorem keepsOthers_flashEraseComplete : KeepsOthers .flashEraseComplete := by
  refine fun s => ⟨_, rfl, ?_⟩
  split
  · split
    · exact Frame.refl _ s
    · exact (frame_flashChanged s _).trans ((frame_finish _ _ _ _).mono (by simp))
  · exact Frame.refl _ s

theorem keepsOthers_scanComplete (noise : List Byte) : KeepsOthers (.scanComplete noise) := by
  refine fun s => ⟨_, rfl, ?_⟩
  dsimp only
  split
  · split
    · exact Frame.refl _ s
    · split
      · exact (frame_scanEnds s _ _).trans ((frame_finish _ _ _ _).mono (by simp))
      · exact frame_scanEnds s _ _
  · exact Frame.refl _ s

theorem keepsOthers_unknownPacket (kind : BitVec 7) (p : Packet) : KeepsOthers (.unknownPacket kind p) := by
  have h : ∀ (s : State) (st : Status), Frame (packetBlocks p) s ((s.arrive p).refuse kind p st) := fun s st =>
    (frame_arrive s p).trans ((frame_refuse _ kind p st).mono (by simp [packetBlocks]))
  refine fun s => ⟨_, rfl, ?_⟩
  split
  · exact Frame.refl _ s
  · dsimp only
    split
    · exact h s _
    · exact h s _

/-- A packet command whose owner changes the blocks `cs` beside the packet's own. -/
theorem keepsOthers_packet {cs : List Block} {c : Instr} {k : Kind} {p : Packet} {own : Packet → State → State}
    (hc : ∀ s, exec c s = .next (serve k p own s)) (ht : touched c = cs ++ packetBlocks p)
    (h : ∀ t, Frame (cs ++ packetBlocks p) t (own p t)) : KeepsOthers c :=
  fun s => ⟨_, hc s, ht ▸ frame_serve_owner h s⟩

/-- A row that acts on one port alone changes that port alone. -/
theorem keepsOthers_port {c : Instr} {l : Link} {g : Port → Port} (hc : ∀ s, exec c s = .next (s.mapPort l g))
    (ht : touched c = [.port l]) : KeepsOthers c := fun s => ⟨_, hc s, ht ▸ frame_mapPort s l g⟩

end Events

/-! ### Every command -/

theorem keepsOthers (c : Instr) : KeepsOthers c := by
  cases c with
  | powerOnReset high => exact keepsOthers_powerOnReset high
  | frameStart order => exact keepsOthers_frameStart order
  | referencePulse time => exact keepsOthers_referencePulse time
  | decisionInstant => exact keepsOthers_decisionInstant
  | holdoverExpiry => exact keepsOthers_holdoverExpiry
  | nudgeApply => exact keepsOthers_nudgeApply
  | offsetTakesEffect => exact keepsOthers_offsetTakesEffect
  | pendingCut => exact keepsOthers_pendingCut
  | panicActs => exact keepsOthers_panicActs
  | flip f => exact keepsOthers_flip f
  | timelineCommit n => exact keepsOthers_timelineCommit n
  | blinkCycleEnd n => exact keepsOthers_blinkCycleEnd n
  | memoExpiry d => exact keepsOthers_memoExpiry d
  | tileFetchComplete noise => exact keepsOthers_tileFetchComplete noise
  | jobComplete => exact keepsOthers_jobComplete
  | deferredWriteApply => exact keepsOthers_deferredWriteApply
  | cacheRestoreApply l => exact keepsOthers_cacheRestoreApply l
  | flashReadComplete noise => exact keepsOthers_flashReadComplete noise
  | flashProgramComplete fails => exact keepsOthers_flashProgramComplete fails
  | flashEraseComplete => exact keepsOthers_flashEraseComplete
  | scanComplete noise => exact keepsOthers_scanComplete noise
  | cacheHitParityError tile => exact keepsOthers_cacheHitParityError tile
  | transmitEnd l => exact keepsOthers_port (fun _ => rfl) rfl
  | lineBreak l => exact keepsOthers_port (fun _ => rfl) rfl
  | lineBreakEnd l => exact keepsOthers_port (fun _ => rfl) rfl
  | framingError l => exact keepsOthers_port (fun _ => rfl) rfl
  | receiveTimeout l => exact keepsOthers_port (fun _ => rfl) rfl
  | headerReceived l header => exact keepsOthers_port (fun _ => rfl) rfl
  | startByte l => exact keepsOthers_port (fun _ => rfl) rfl
  | unknownPacket kind p => exact keepsOthers_unknownPacket kind p
  | status p => exact keepsOthers_packet (fun _ => rfl) rfl fun t => frame_answer [] t p _ _
  | echo p => exact keepsOthers_packet (fun _ => rfl) rfl fun t => frame_answer [] t p _ _
  | pageRead p => exact keepsOthers_packet (fun _ => rfl) rfl fun t => frame_answer [] t p _ _
  | gridStatus p => exact keepsOthers_packet (fun _ => rfl) rfl (frame_ownGridStatus p)
  | faultRead p => exact keepsOthers_packet (fun _ => rfl) rfl (frame_ownFaultRead p)
  | cacheRestore p => exact keepsOthers_packet (fun _ => rfl) rfl (frame_ownCacheRestore p)
  | memoPost p => exact keepsOthers_packet (fun _ => rfl) rfl (frame_ownMemoPost p)
  | memoTake p => exact keepsOthers_packet (fun _ => rfl) rfl (frame_ownMemoTake p)
  | memoWithdraw p => exact keepsOthers_packet (fun _ => rfl) rfl (frame_ownMemoWithdraw p)
  | gridDefine p => exact keepsOthers_packet (fun _ => rfl) rfl (frame_ownGridDefine p)
  | gridRows p => exact keepsOthers_packet (fun _ => rfl) rfl (frame_ownGridRows p)
  | gridPublish p => exact keepsOthers_packet (fun _ => rfl) rfl (frame_ownGridPublish p)
  | listWrite p => exact keepsOthers_packet (fun _ => rfl) rfl (frame_ownListWrite p)
  | symbolWrite p => exact keepsOthers_packet (fun _ => rfl) rfl (frame_ownSymbolWrite p)
  | flashRead p => exact keepsOthers_packet (fun _ => rfl) rfl (frame_ownFlashRead p)
  | flashProgram p => exact keepsOthers_packet (fun _ => rfl) rfl (frame_ownFlashProgram p)
  | flashErase p => exact keepsOthers_packet (fun _ => rfl) rfl (frame_ownFlashErase p)
  | chartRescan p => exact keepsOthers_packet (fun _ => rfl) rfl (frame_ownChartRescan p)
  | pageDefine p => exact keepsOthers_packet (fun _ => rfl) rfl (frame_ownPageDefine p)
  | pageDelete p => exact keepsOthers_packet (fun _ => rfl) rfl (frame_ownPageDelete p)
  | load p => exact keepsOthers_packet (fun _ => rfl) rfl (frame_ownLoad p)
  | unload p => exact keepsOthers_packet (fun _ => rfl) rfl (frame_ownUnload p)
  | take p => exact keepsOthers_packet (fun _ => rfl) rfl (frame_ownTake p)
  | clear p => exact keepsOthers_packet (fun _ => rfl) rfl (frame_ownClear p)
  | panic p => exact keepsOthers_packet (fun _ => rfl) rfl (frame_ownPanic p)
  | paletteWrite p => exact keepsOthers_packet (fun _ => rfl) rfl (frame_ownPaletteWrite p)
  | timelineSet p => exact keepsOthers_packet (fun _ => rfl) rfl (frame_ownTimelineSet p)
  | timelineSteps p => exact keepsOthers_packet (fun _ => rfl) rfl (frame_ownTimelineSteps p)
  | timelineRun p => exact keepsOthers_packet (fun _ => rfl) rfl (frame_ownTimelineRun p)
  | timelineStop p => exact keepsOthers_packet (fun _ => rfl) rfl (frame_ownTimelineStop p)
  | timelineJump p => exact keepsOthers_packet (fun _ => rfl) rfl (frame_ownTimelineJump p)
  | timelineClear p => exact keepsOthers_packet (fun _ => rfl) rfl (frame_ownTimelineClear p)
  | blinkSet p => exact keepsOthers_packet (fun _ => rfl) rfl (frame_ownBlinkSet p)
  | offset p => exact keepsOthers_packet (fun _ => rfl) rfl (frame_ownOffset p)
  | nudge p => exact keepsOthers_packet (fun _ => rfl) rfl (frame_ownNudge p)

/-- Settles O2: each owner and each event changes only listed blocks. -/
theorem commandLeavesOtherBlocks : Obligations.CommandLeavesOtherBlocks := by
  intro c s t b h hb
  obtain ⟨u, hu, hf⟩ := keepsOthers c s
  obtain rfl : u = t := by simpa [hu] using h
  exact hf b hb

end Sys2Proof.Machine
end

section
/-! A frame start's number and schedule (O6). -/

namespace Sys2Proof.Machine

/-- The blocks' own handling of an entered frame start moves the reference items of the generator alone (R9, R12). -/
theorem framed_schedule (s : State) :
    s.framed.timing.began = s.timing.began ∧ s.framed.timing.now = s.timing.now ∧
      s.framed.timing.scheduled = s.timing.scheduled ∧ s.framed.timing.offset = s.timing.offset := by
  rw [framed_timing, holdoverFrame_timing]
  split
  · exact ⟨rfl, rfl, rfl, rfl⟩
  · rw [Timing.holdoverFrame_eq]; exact ⟨rfl, rfl, rfl, rfl⟩

/-- The notices queued at the end of FRAME_START leave the generator and the marks, which are then clear (log 6). -/
theorem frameStart_timing (order : List FramePart) (s : State) :
    ∃ t, exec (.frameStart order) s = .next t ∧ t.timing = s.enterFrame.framed.timing ∧ t.ahead = [] := by
  obtain ⟨t, ht, hf⟩ := frameStart_next order s
  exact ⟨t, ht, hf.timing_eq (by simp) (by simp), by rw [hf.ahead_eq (by simp), framed_ahead]⟩

theorem isAhead_iff (s : State) (h : FramePart) : s.isAhead h = true ↔ h ∈ s.ahead := List.contains_iff_mem

theorem isAhead_eq_false {s : State} {h : FramePart} (hn : h ∉ s.ahead) : s.isAhead h = false := by
  rwa [← isAhead_iff, Bool.not_eq_true] at hn

/-- FRAME_START that enters its frame start: the generator makes its own step (R5, R6). -/
theorem frameStart_enters (order : List FramePart) (s : State) (hg : FramePart.generator ∉ s.ahead) :
    ∃ t, exec (.frameStart order) s = .next t ∧
      t.timing.frame = s.timing.frame + 1 ∧ t.timing.began = s.timing.frameInstant ∧
      t.timing.now = max s.timing.now s.timing.frameInstant ∧ t.ahead = [] ∧
      (s.timing.pendingOffset = none → t.timing.scheduled = s.timing.frameInstant + s.timing.total) := by
  obtain ⟨t, ht, htiming, hahead⟩ := frameStart_timing order s
  obtain ⟨hbegan, hnow, hscheduled, -⟩ := framed_schedule s.enterFrame
  have hentered := enterFrame_timing (isAhead_eq_false hg)
  refine ⟨t, ht, ?_, ?_, ?_, hahead, fun hp => ?_⟩
  · rw [htiming, framed_frame, hentered]; exact Timing.frameStart_frame _
  · rw [htiming, hbegan, hentered]; exact Timing.frameStart_began _
  · rw [htiming, hnow, hentered]
  · rw [htiming, hscheduled, hentered]; exact Timing.frameStart_total hp

/-- FRAME_START of a frame start that a row has entered leaves number and schedule (log 6). -/
theorem frameStart_entered (order : List FramePart) (s : State) (hg : FramePart.generator ∈ s.ahead) :
    ∃ t, exec (.frameStart order) s = .next t ∧
      t.timing.frame = s.timing.frame ∧ t.timing.began = s.timing.began ∧ t.timing.scheduled = s.timing.scheduled ∧
      t.timing.offset = s.timing.offset ∧ t.timing.now = s.timing.now ∧ t.ahead = [] := by
  obtain ⟨t, ht, htiming, hahead⟩ := frameStart_timing order s
  rw [enterFrame_entered ((isAhead_iff s _).2 hg)] at htiming
  obtain ⟨hbegan, hnow, hscheduled, hoffset⟩ := framed_schedule s
  rw [← htiming] at hbegan hnow hscheduled hoffset
  exact ⟨t, ht, by rw [htiming, framed_frame], hbegan, hscheduled, hoffset, hnow, hahead⟩

/-- Settles O6: the generator's own step, and the notices as they are queued and arranged. -/
theorem frameStartAdvances : Obligations.FrameStartAdvances :=
  ⟨frameStart_enters, frameStart_entered,
    fun order s => ⟨_, rfl, frameStart_ports order s⟩,
    fun order ps => ⟨arrange_perm order ps, arrange_filter order ps⟩⟩

end Sys2Proof.Machine
end

section
/-! GRID DEFINE, GRID ROWS, GRID PUBLISH and GRID STATUS (O24, O25, O26). -/

namespace Sys2Proof.Machine

/-! ### GRID DEFINE (R53, R54) -/

section Define

variable {p : Packet} {s : State} {f : Fin 4}

theorem ownGridDefine_outside (h : 4 ≤ p.arg.toNat) : ownGridDefine p s = s.finish p.link .range [] := by
  simp [ownGridDefine, indexOf_eq_none h]

theorem ownGridDefine_inUse (hf : p.arg.toNat = f.val)
    (h : s.pages.namesField f = true ∨ s.render.holds f = true) :
    ownGridDefine p s = s.finish p.link .pageInUse [] := by
  simp [ownGridDefine, indexOf_eq_some hf, h]

theorem ownGridDefine_noGeometry (hf : p.arg.toNat = f.val) (hn : s.pages.namesField f = false)
    (hh : s.render.holds f = false) (hg : parseGeometry p.payload = none) :
    ownGridDefine p s = s.finish p.link .range [] := by
  simp [ownGridDefine, indexOf_eq_some hf, hn, hh, hg]

theorem ownGridDefine_invalid {g : Geometry} (hf : p.arg.toNat = f.val) (hn : s.pages.namesField f = false)
    (hh : s.render.holds f = false) (hg : parseGeometry p.payload = some g) (hv : g.valid = false) :
    ownGridDefine p s = s.finish p.link .range [] := by
  simp [ownGridDefine, indexOf_eq_some hf, hn, hh, hg, hv]

theorem ownGridDefine_valid {g : Geometry} (hf : p.arg.toNat = f.val) (hn : s.pages.namesField f = false)
    (hh : s.render.holds f = false) (hg : parseGeometry p.payload = some g) (hv : g.valid = true) :
    ownGridDefine p s = (s.setFieldSet f (s.store.sets[f].define g)).finish p.link .ok [] := by
  simp [ownGridDefine, indexOf_eq_some hf, hn, hh, hg, hv]

end Define

/-- Settles O24, by the owner's cases in their order. -/
theorem gridDefineStartsAnew : Obligations.GridDefineStartsAnew := by
  have run (p : Packet) (s : State) (ht : takes .gridDefine p s = true) :
      exec (.gridDefine p) s = .next (ownGridDefine p (s.taken .gridDefine p)) := exec_of_takes rfl ht
  refine ⟨fun p s ht h => ?outside, fun p s f ht hf =>
    ⟨fun h => ?inUse, fun hn hh => ⟨fun hg => ?noGeometry, fun g hg => ⟨fun hv => ?invalid, fun hv => ?valid⟩⟩⟩⟩
  case outside => rw [run p s ht, ownGridDefine_outside h]
  case inUse => rw [run p s ht, ownGridDefine_inUse hf (by simpa using h)]
  case noGeometry => rw [run p s ht, ownGridDefine_noGeometry hf (by simpa using hn) (by simpa using hh) hg]
  case invalid => rw [run p s ht, ownGridDefine_invalid hf (by simpa using hn) (by simpa using hh) hg hv]
  case valid =>
    refine ⟨_, (run p s ht).trans (congrArg _
      (ownGridDefine_valid hf (by simpa using hn) (by simpa using hh) hg hv)), ?_⟩
    simp +contextual [-Fin.getElem_fin, FieldSet.define, State.setFieldSet_same, State.setFieldSet_other]

end Sys2Proof.Machine
end

section
/-! GRID ROWS (O25). -/

namespace Sys2Proof.Machine

/-! ### Banks of a field set -/

section Banks

variable (v : FieldSet) (second : Bool) (b : Bank)

@[simp] theorem FieldSet.setBank_bank : (v.setBank second b).bank second = b := by cases second <;> rfl
@[simp] theorem FieldSet.setBank_bank_not : (v.setBank second b).bank (!second) = v.bank (!second) := by
  cases second <;> rfl
@[simp] theorem FieldSet.setBank_geometry : (v.setBank second b).geometry = v.geometry := by cases second <;> rfl

variable {v second}

/-- The bank found by its role has that role (R51). -/
theorem FieldSet.findRole_role {r : BankRole} (h : v.findRole r = some second) : (v.bank second).role = r := by
  unfold FieldSet.findRole at h
  split at h
  · cases h; assumption
  · split at h
    · cases h; assumption
    · cases h

end Banks

/-- A key added to a map is in it, beside those that were (R56). -/
theorem mem_addKey {key k : Nat} {ks : List Nat} : k ∈ addKey key ks ↔ k = key ∨ k ∈ ks := by
  induction ks with
  | nil => simp [addKey]
  | cons a rest ih =>
    unfold addKey
    split
    · simp
    · split
      · simp_all
      · simp only [List.mem_cons, ih]; exact or_left_comm

/-! ### The values of a row (R52, R55, R56) -/

theorem rowValues_length (n : Nat) (bytes : List Byte) : (rowValues n bytes).length = n := by simp [rowValues]

theorem rowValues_getElem {n i : Nat} (bytes : List Byte) (h : i < (rowValues n bytes).length) :
    (rowValues n bytes)[i] = fieldInt bytes (2 + 2 * i) := by simp [rowValues]

theorem clampRow_length (k : FieldKind) (vs : List Int) : (k.clampRow vs).length = vs.length := by
  simp [FieldKind.clampRow]

theorem clampRow_getElem (k : FieldKind) (vs : List Int) {i : Nat} (h : i < vs.length) :
    (k.clampRow vs)[i]'(by rwa [clampRow_length]) = k.clamp i vs[i] := by
  simp [FieldKind.clampRow, h]

/-- A clamped row of a payload, value by value (R56). -/
theorem clampRow_rowValues_getD (k : FieldKind) {n i : Nat} (bytes : List Byte) (h : i < n) :
    (k.clampRow (rowValues n bytes)).getD i 0 = k.clamp i (fieldInt bytes (2 + 2 * i)) := by
  have hr : i < (rowValues n bytes).length := by rwa [rowValues_length]
  rw [List.getD_eq_getElem _ _ (by rwa [clampRow_length]), clampRow_getElem k _ hr, rowValues_getElem]

/-- A row is changed by its clamping where one of its values is (R56). -/
theorem clampRow_ne_iff (k : FieldKind) (n : Nat) (bytes : List Byte) :
    k.clampRow (rowValues n bytes) ≠ rowValues n bytes ↔
      ∃ i, i < n ∧ k.clamp i (fieldInt bytes (2 + 2 * i)) ≠ fieldInt bytes (2 + 2 * i) := by
  rw [← not_iff_not, not_not]
  push Not
  constructor
  · intro h i hi
    have hr : i < (rowValues n bytes).length := by rwa [rowValues_length]
    rw [← clampRow_rowValues_getD k bytes hi, h, List.getD_eq_getElem _ _ hr, rowValues_getElem]
  · intro h
    refine List.ext_getElem (clampRow_length _ _) fun i _ hr => ?_
    rw [clampRow_getElem k _ hr, rowValues_getElem]
    exact h i (by rwa [rowValues_length] at hr)

/-! ### The owner's cases (R55) -/

section Rows

variable {p : Packet} {s : State} {f : Fin 4} {g : Geometry}

theorem ownGridRows_outside (h : 4 ≤ p.arg.toNat) : ownGridRows p s = s.finish p.link .range [] := by
  simp [ownGridRows, indexOf_eq_none h]

theorem ownGridRows_undefined (hf : p.arg.toNat = f.val) (hg : s.store.sets[f].geometry = none) :
    ownGridRows p s = s.finish p.link .range [] := by
  simp only [ownGridRows, indexOf_eq_some hf, hg]

theorem ownGridRows_pending (hf : p.arg.toNat = f.val) (hg : s.store.sets[f].geometry = some g)
    (h : s.store.sets[f].findRole .pending ≠ none) : ownGridRows p s = s.finish p.link .pending [] := by
  simp only [ownGridRows, indexOf_eq_some hf, hg, Option.isSome_iff_ne_none.2 h, if_true]

theorem ownGridRows_beyond (hf : p.arg.toNat = f.val) (hg : s.store.sets[f].geometry = some g)
    (hp : s.store.sets[f].findRole .pending = none)
    (h : g.slots ≤ fieldNat p.payload 0 1 ∨ g.rows ≤ fieldNat p.payload 1 1) :
    ownGridRows p s = s.finish p.link .range [] := by
  simp [ownGridRows, indexOf_eq_some hf, -Fin.getElem_fin, hg, hp, h]

/-- The staging bank of a GRID ROWS with the row that its packet carries, clamped (R56). -/
def rowWritten (p : Packet) (g : Geometry) (b : Bank) : Bank :=
  b.writeRow (fieldNat p.payload 0 1) (fieldNat p.payload 1 1)
    (g.kind.clampRow (rowValues (g.columns * g.kind.arity) p.payload))

theorem ownGridRows_stored {second : Bool} (hf : p.arg.toNat = f.val) (hg : s.store.sets[f].geometry = some g)
    (hp : s.store.sets[f].findRole .pending = none) (hslot : fieldNat p.payload 0 1 < g.slots)
    (hrow : fieldNat p.payload 1 1 < g.rows) (hs : s.store.sets[f].findRole .staging = some second) :
    ownGridRows p s =
      (s.setFieldSet f (s.store.sets[f].setBank second (rowWritten p g (s.store.sets[f].bank second)))).finish p.link
        (okOr (g.kind.clampRow (rowValues (g.columns * g.kind.arity) p.payload) !=
          rowValues (g.columns * g.kind.arity) p.payload))
        (bytes2 ((rowWritten p g (s.store.sets[f].bank second)).missing g)) := by
  have hin : ¬(g.slots ≤ fieldNat p.payload 0 1 ∨ g.rows ≤ fieldNat p.payload 1 1) := by omega
  simp only [ownGridRows, indexOf_eq_some hf, hg, hp, hs, Option.isSome_none, Bool.false_eq_true, if_false, if_neg hin,
    rowWritten]

end Rows

/-- Settles O25, by the owner's cases in their order; the row is read back by the sparse memory's law. -/
theorem gridRowsWritesStaging : Obligations.GridRowsWritesStaging := by
  have run (p : Packet) (s : State) (ht : takes .gridRows p s = true) :
      exec (.gridRows p) s = .next (ownGridRows p (s.taken .gridRows p)) := exec_of_takes rfl ht
  refine ⟨fun p s ht h => ?refused, fun p s f g ht hf hg =>
    ⟨fun h => ?pending, fun hp h => ?beyond, fun second hp hslot hrow hs hwf => ?stored⟩⟩
  case refused =>
    rcases h with h | ⟨f, hf, hg⟩
    · rw [run p s ht, ownGridRows_outside h]
    · rw [run p s ht, ownGridRows_undefined hf (by rwa [State.taken_store])]
  case pending => rw [run p s ht, ownGridRows_pending hf (by rwa [State.taken_store]) (by rwa [State.taken_store])]
  case beyond => rw [run p s ht, ownGridRows_beyond hf (by rwa [State.taken_store]) (by rwa [State.taken_store]) h]
  case stored =>
    have own := ownGridRows_stored (s := s.taken .gridRows p) hf (by rwa [State.taken_store])
      (by rwa [State.taken_store]) hslot hrow (by rwa [State.taken_store])
    refine ⟨_, (run p s ht).trans (congrArg _ own), ?_⟩
    simp only [State.finish_store, State.setFieldSet_same, State.taken_store, FieldSet.setBank_bank,
      FieldSet.setBank_bank_not, FieldSet.setBank_geometry, State.finish_port, State.setFieldSet_port]
    refine ⟨fun i hi => ?_, fun k hk => ?_, fun k => mem_addKey, FieldSet.findRole_role hs, trivial, hg, fun h hh => ?_,
      _, okOr_eq_or _, ?_, rfl⟩
    · rw [← clampRow_rowValues_getD g.kind p.payload hi]
      exact congrArg (·.getD i 0) ((Mem.read_write hwf _ _ _).trans (if_pos rfl))
    · exact (Mem.read_write hwf _ _ _).trans (if_neg hk)
    · rw [State.setFieldSet_other _ hh, State.taken_store]
    · rw [okOr_eq_adjusted_iff, bne_iff_ne]
      exact clampRow_ne_iff _ _ _

end Sys2Proof.Machine
end

section
/-! GRID PUBLISH and GRID STATUS (O26). -/

namespace Sys2Proof.Machine

/-! ### The first missing pair (R57) -/

/-- In a list ordered by `lt`, the least element that satisfies a test is the one found. -/
theorem find?_eq_some_of_least {α : Type} {lt : α → α → Prop} {test : α → Bool} {l : List α} (ho : l.Pairwise lt)
    {a : α} (ha : a ∈ l) (ht : test a = true) (hleast : ∀ b ∈ l, lt b a → test b = false) : l.find? test = some a := by
  induction l with
  | nil => cases ha
  | cons x rest ih =>
    obtain ⟨hx, hr⟩ := List.pairwise_cons.1 ho
    rcases List.mem_cons.1 ha with rfl | hm
    · exact List.find?_cons_of_pos ht
    · rw [List.find?_cons_of_neg (by simp [hleast x (by simp) (hx a hm)])]
      exact ih hr hm fun b hb => hleast b (List.mem_cons_of_mem _ hb)

/-- Slot-major order of (slot, row) pairs (R57). -/
def slotMajor (a b : Nat × Nat) : Prop := a.1 < b.1 ∨ (a.1 = b.1 ∧ a.2 < b.2)

/-- The pairs of a grid of `m` slots and `n` rows, in the order in which GRID PUBLISH reads them (R57). -/
def gridPairs (m n : Nat) : List (Nat × Nat) := (List.range m).flatMap fun sl => (List.range n).map fun r => (sl, r)

theorem mem_gridPairs {m n : Nat} {x : Nat × Nat} : x ∈ gridPairs m n ↔ x.1 < m ∧ x.2 < n := by
  obtain ⟨sl, r⟩ := x
  simp [gridPairs]

theorem gridPairs_ordered (m n : Nat) : (gridPairs m n).Pairwise slotMajor := by
  refine List.pairwise_flatMap.2 ⟨fun sl _ => ?_, List.pairwise_lt_range.imp fun {a b} hab x hx y hy => ?_⟩
  · exact List.pairwise_map.2 (List.pairwise_lt_range.imp fun h => .inr ⟨rfl, h⟩)
  · obtain ⟨_, -, rfl⟩ := List.mem_map.1 hx
    obtain ⟨_, -, rfl⟩ := List.mem_map.1 hy
    exact .inl hab

theorem Bank.firstMissing_eq (b : Bank) (g : Geometry) :
    b.firstMissing g = (gridPairs g.slots g.rows).find? fun x => !b.written.contains (rowKey x.1 x.2) := rfl

/-- The first missing pair is missing, and every pair before it is in the map (R57). -/
theorem Bank.firstMissing_eq_some {b : Bank} {g : Geometry} {sl r : Nat} (hsl : sl < g.slots) (hr : r < g.rows)
    (hmissing : rowKey sl r ∉ b.written)
    (hbefore : ∀ sl' r', sl' < g.slots → r' < g.rows → sl' < sl ∨ (sl' = sl ∧ r' < r) → rowKey sl' r' ∈ b.written) :
    b.firstMissing g = some (sl, r) := by
  rw [Bank.firstMissing_eq]
  refine find?_eq_some_of_least (gridPairs_ordered _ _) (mem_gridPairs.2 ⟨hsl, hr⟩) (by simpa using hmissing) ?_
  rintro ⟨sl', r'⟩ hm hlt
  obtain ⟨hs', hr'⟩ := mem_gridPairs.1 hm
  simpa using hbefore sl' r' hs' hr' hlt

/-- A full bank has no missing pair (R57). -/
theorem Bank.firstMissing_eq_none {b : Bank} {g : Geometry} (h : b.full g) : b.firstMissing g = none := by
  rw [Bank.firstMissing_eq, List.find?_eq_none]
  rintro ⟨sl, r⟩ hm
  obtain ⟨hs, hr⟩ := mem_gridPairs.1 hm
  simpa using h sl hs r hr

/-! ### The owner's cases (R57) -/

section Publish

variable {p : Packet} {s : State} {f : Fin 4} {g : Geometry} {second : Bool}

theorem ownGridPublish_outside (h : 4 ≤ p.arg.toNat) : ownGridPublish p s = s.finish p.link .range [] := by
  simp [ownGridPublish, indexOf_eq_none h]

theorem ownGridPublish_undefined (hf : p.arg.toNat = f.val) (hg : s.store.sets[f].geometry = none) :
    ownGridPublish p s = s.finish p.link .range [] := by
  simp only [ownGridPublish, indexOf_eq_some hf, hg]

theorem ownGridPublish_pending (hf : p.arg.toNat = f.val) (hg : s.store.sets[f].geometry = some g)
    (h : s.store.sets[f].findRole .pending ≠ none) : ownGridPublish p s = s.finish p.link .pending [] := by
  simp only [ownGridPublish, indexOf_eq_some hf, hg, Option.isSome_iff_ne_none.2 h, if_true]

theorem ownGridPublish_incomplete {sl r : Nat} (hf : p.arg.toNat = f.val) (hg : s.store.sets[f].geometry = some g)
    (hp : s.store.sets[f].findRole .pending = none) (hs : s.store.sets[f].findRole .staging = some second)
    (h : (s.store.sets[f].bank second).firstMissing g = some (sl, r)) :
    ownGridPublish p s = s.finish p.link .incomplete
      (bytes2 ((s.store.sets[f].bank second).missing g) ++ [byteOf sl, byteOf r]) := by
  simp only [ownGridPublish, indexOf_eq_some hf, hg, hp, hs, h, Option.isSome_none, Bool.false_eq_true, if_false]

theorem ownGridPublish_offered (hf : p.arg.toNat = f.val) (hg : s.store.sets[f].geometry = some g)
    (hp : s.store.sets[f].findRole .pending = none) (hs : s.store.sets[f].findRole .staging = some second)
    (h : (s.store.sets[f].bank second).firstMissing g = none) :
    ownGridPublish p s =
      (s.setFieldSet f (s.store.sets[f].setBank second { s.store.sets[f].bank second with role := .pending })).finish
        p.link .ok [] := by
  simp only [ownGridPublish, indexOf_eq_some hf, hg, hp, hs, h, Option.isSome_none, Bool.false_eq_true, if_false]

theorem ownGridStatus_outside (h : 4 ≤ p.arg.toNat) : ownGridStatus p s = s.finish p.link .range [] := by
  simp [ownGridStatus, indexOf_eq_none h]

theorem ownGridStatus_within (hf : p.arg.toNat = f.val) :
    ownGridStatus p s = s.finish p.link .ok s.store.sets[f].statusBytes := by
  simp only [ownGridStatus, indexOf_eq_some hf]

end Publish

/-! ### The bytes of GRID STATUS (R61) -/

/-- The missing count's bytes, read off the two banks' roles (R61, R186). -/
theorem FieldSet.missingBytes_eq (v : FieldSet) (g : Geometry) :
    v.missingBytes g =
      if v.bank0.role = .staging then bytes2 (g.slots * g.rows - v.bank0.written.length)
      else if v.bank1.role = .staging then bytes2 (g.slots * g.rows - v.bank1.written.length) else [0xFF, 0xFF] := by
  unfold FieldSet.missingBytes FieldSet.findRole
  by_cases h0 : v.bank0.role = .staging
  · simp only [if_pos h0]; rfl
  · by_cases h1 : v.bank1.role = .staging
    · simp only [if_neg h0, if_pos h1]; rfl
    · simp only [if_neg h0, if_neg h1]; rfl

/-- Settles O26, by the owners' cases in their order and the layout of the status bytes. -/
theorem gridPublishAndStatus : Obligations.GridPublishAndStatus := by
  have run (p : Packet) (s : State) (ht : takes .gridPublish p s = true) :
      exec (.gridPublish p) s = .next (ownGridPublish p (s.taken .gridPublish p)) := exec_of_takes rfl ht
  have runStatus (p : Packet) (s : State) (ht : takes .gridStatus p s = true) :
      exec (.gridStatus p) s = .next (ownGridStatus p (s.taken .gridStatus p)) := exec_of_takes rfl ht
  refine ⟨fun p s ht h => ?refused, fun p s ht h => ?statusRefused, fun p s f g ht hf hg =>
    ⟨fun h => ?pending, fun second hp hs => ⟨fun sl r hsl hr hm hb => ?incomplete, fun hfull => ?offered⟩⟩,
    fun p s f ht hf => ?status, fun v => ⟨fun hg => ?empty, fun g hg => ?defined⟩⟩
  case refused =>
    rcases h with h | ⟨f, hf, hg⟩
    · rw [run p s ht, ownGridPublish_outside h]
    · rw [run p s ht, ownGridPublish_undefined hf (by rwa [State.taken_store])]
  case statusRefused => rw [runStatus p s ht, ownGridStatus_outside h]
  case pending =>
    rw [run p s ht, ownGridPublish_pending hf (by rwa [State.taken_store]) (by rwa [State.taken_store])]
  case incomplete =>
    have first := Bank.firstMissing_eq_some hsl hr hm hb
    rw [run p s ht, ownGridPublish_incomplete hf (by rwa [State.taken_store]) (by rwa [State.taken_store])
      (by rwa [State.taken_store]) (by rwa [State.taken_store]), State.taken_store]
    rfl
  case offered =>
    have own := ownGridPublish_offered (s := s.taken .gridPublish p) hf (by rwa [State.taken_store])
      (by rwa [State.taken_store]) (by rwa [State.taken_store])
      (by rw [State.taken_store]; exact Bank.firstMissing_eq_none hfull)
    refine ⟨_, (run p s ht).trans (congrArg _ own), ?_⟩
    simp only [State.finish_store, State.setFieldSet_same, State.taken_store, FieldSet.setBank_bank,
      FieldSet.setBank_bank_not, State.finish_port, State.setFieldSet_port]
    exact ⟨trivial, trivial, fun h hh => by rw [State.setFieldSet_other _ hh, State.taken_store], trivial⟩
  case status => rw [runStatus p s ht, ownGridStatus_within hf, State.taken_store]
  case empty => simp only [FieldSet.statusBytes, hg]; rfl
  case defined => simp only [FieldSet.statusBytes, hg, FieldSet.missingBytes_eq]; rfl

end Sys2Proof.Machine
end

section
/-! LIST WRITE, SYMBOL WRITE and DEFERRED_WRITE_APPLY (O28). -/

namespace Sys2Proof.Machine

/-! ### Records that are refused (R63) -/

theorem colourOf_eq_none_iff (b : Byte) : colourOf b = none ↔ 31 < b.toNat := by
  unfold colourOf
  split
  · simp; omega
  · simp; omega

/-- An optional index is refused where it is neither in its set nor the marker (R186). -/
theorem optIndexOf_four_eq_none_iff (b : Byte) : optIndexOf 4 b = none ↔ 3 < b.toNat ∧ b ≠ 0xFF := by
  unfold optIndexOf
  by_cases hb : b = absentByte
  · rw [if_pos hb]; exact iff_of_false (by simp) fun h => h.2 hb
  · rw [if_neg hb]
    cases hi : indexOf 4 b.toNat with
    | none => exact iff_of_true rfl ⟨indexOf_eq_none_iff.1 hi, hb⟩
    | some i =>
      refine iff_of_false (by simp) fun h => ?_
      rw [indexOf_eq_none h.1] at hi
      cases hi

theorem parsePlacement_eq_none_iff (r : List Byte) :
    parsePlacement r = none ↔
      63 < (fieldByte r 0).toNat ∨ 31 < (fieldByte r 5).toNat ∨ 31 < (fieldByte r 6).toNat ∨
        (3 < (fieldByte r 7).toNat ∧ fieldByte r 7 ≠ 0xFF) := by
  rw [← optIndexOf_four_eq_none_iff, ← colourOf_eq_none_iff, ← colourOf_eq_none_iff, ← fieldNat_one,
    show 63 < fieldNat r 0 1 ↔ indexOf 64 (fieldNat r 0 1) = none from indexOf_eq_none_iff.symm]
  unfold parsePlacement
  cases indexOf 64 (fieldNat r 0 1) with
  | none => simp
  | some sym =>
    cases colourOf (fieldByte r 5) with
    | none => simp
    | some body =>
      cases colourOf (fieldByte r 6) with
      | none => simp
      | some outline => cases optIndexOf 4 (fieldByte r 7) <;> simp

/-- Records of which one is refused are refused together (R63). -/
theorem parseAll_eq_none {α : Type} {parse : List Byte → Option α} {rs : List (List Byte)} {r : List Byte}
    (hm : r ∈ rs) (hr : parse r = none) : parseAll parse rs = none := by
  induction rs with
  | nil => cases hm
  | cons x rest ih =>
    unfold parseAll
    rcases List.mem_cons.1 hm with rfl | hm
    · simp [hr]
    · rw [ih hm]; cases parse x <;> rfl

/-! ### A write that waits, and one that is applied (R66) -/

section Deferring

variable {s : State} {w : DeferredWrite}

/-- The only waiting write carried out: the store has it, nothing waits, and it is answered (R66). -/
theorem applyDeferred_only (h : s.render.deferred = [w]) :
    s.applyDeferred =
      ((s.setStore (s.store.apply w)).setRender { s.render with deferred := [] }).finish .forecast w.status [] := by
  simp [State.applyDeferred, h]

/-- With no job in flight a write into an empty queue is applied at once (R66). -/
theorem deferWrite_atOnce (hd : s.render.deferred = []) (hj : s.render.job = none) :
    s.deferWrite w =
      ((s.setStore (s.store.apply w)).setRender { s.render with deferred := [] }).finish .forecast w.status [] := by
  have hq : (s.setRender { s.render with deferred := s.render.deferred ++ [w] }).render.deferred = [w] := by simp [hd]
  simp only [State.deferWrite, State.setRender_render, hj, Option.isNone_none, if_true]
  rw [← hj, applyDeferred_only hq]
  rfl

/-- With a job in flight the write waits (R66). -/
theorem deferWrite_waits (hd : s.render.deferred = []) (hj : s.render.job ≠ none) :
    s.deferWrite w = s.setRender { s.render with deferred := [w] } := by
  simp [State.deferWrite, hd, hj]

end Deferring

/-! ### The owners' cases (R63, R65) -/

section Writes

variable {p : Packet} {s : State}

theorem ownListWrite_refused
    (h : 8 ≤ p.arg.toNat ∨ 48 < fieldNat p.payload 0 1 ∨
      ∃ r ∈ records 10 (fieldNat p.payload 0 1) (p.payload.drop 1), parsePlacement r = none) :
    ownListWrite p s = s.finish p.link .range [] := by
  unfold ownListWrite
  dsimp only
  split
  · rename_i l rs hl hrs
    rcases h with h | h | ⟨r, hm, hr⟩
    · rw [indexOf_eq_none h] at hl; cases hl
    · rw [if_pos h]
    · rw [parseAll_eq_none hm hr] at hrs; cases hrs
  · rfl

theorem ownListWrite_accepted {l : Fin 8} {rs : List (Placement × Bool)} (hl : p.arg.toNat = l.val)
    (hc : fieldNat p.payload 0 1 ≤ 48)
    (hr : parseAll parsePlacement (records 10 (fieldNat p.payload 0 1) (p.payload.drop 1)) = some rs) :
    ownListWrite p s = s.deferWrite (.list l (rs.map (·.1)) (rs.any (·.2))) := by
  simp only [ownListWrite, indexOf_eq_some hl, hr, if_neg (Nat.not_lt.2 hc)]

theorem ownSymbolWrite_refused (h : 63 < p.arg.toNat * 16 + fieldNat p.payload 0 1) :
    ownSymbolWrite p s = s.finish p.link .range [] := by
  simp only [ownSymbolWrite, symbolId, indexOf_eq_none (show 64 ≤ p.arg.toNat * 16 + fieldNat p.payload 0 1 from h)]

theorem ownSymbolWrite_accepted {id : Fin 64} (h : p.arg.toNat * 16 + fieldNat p.payload 0 1 = id.val) :
    ownSymbolWrite p s = s.deferWrite (.symbol id ((p.payload.drop 1).take 256)) := by
  simp only [ownSymbolWrite, symbolId, indexOf_eq_some h, fieldBytes]

end Writes

/-! ### One list or symbol written (R63, R65) -/

section Applied

variable (v : FieldStore)

theorem apply_list_same (l : Fin 8) (records : List Placement) (adjusted : Bool) :
    (v.apply (.list l records adjusted)).lists[l] = records := by simp [FieldStore.apply]
theorem apply_list_other {l m : Fin 8} (h : m ≠ l) (records : List Placement) (adjusted : Bool) :
    (v.apply (.list l records adjusted)).lists[m] = v.lists[m] := by
  simp [FieldStore.apply, Fin.val_ne_of_ne h.symm]
theorem apply_symbol_same (id : Fin 64) (codes : List Byte) : (v.apply (.symbol id codes)).symbols[id] = codes := by
  simp [FieldStore.apply]
theorem apply_symbol_other {id m : Fin 64} (h : m ≠ id) (codes : List Byte) :
    (v.apply (.symbol id codes)).symbols[m] = v.symbols[m] := by
  simp [FieldStore.apply, Fin.val_ne_of_ne h.symm]

end Applied

/-- Settles O28: what refuses a write, and the two ways of an accepted one, at once and in the gap between jobs. -/
theorem deferredWritesApplyInTheGap : Obligations.DeferredWritesApplyInTheGap := by
  have run {p : Packet} {s : State} (ht : takes .listWrite p s = true) :
      exec (.listWrite p) s = .next (ownListWrite p (s.taken .listWrite p)) := exec_of_takes rfl ht
  have runSymbol {p : Packet} {s : State} (ht : takes .symbolWrite p s = true) :
      exec (.symbolWrite p) s = .next (ownSymbolWrite p (s.taken .symbolWrite p)) := exec_of_takes rfl ht
  refine ⟨fun p s ht h => ?listRefused, parsePlacement_eq_none_iff, fun p s ht h => ?symbolRefused,
    fun p s l rs ht hl hc hr hd => ⟨fun hj => ?listAtOnce, fun hj => ?listWaits⟩,
    fun p s id ht hid hd => ⟨fun hj => ?symbolAtOnce, fun hj => ?symbolWaits⟩, fun s w hd hj => ?applied⟩
  case listRefused => rw [run ht, ownListWrite_refused h]
  case symbolRefused => rw [runSymbol ht, ownSymbolWrite_refused h]
  case listAtOnce =>
    refine ⟨_, (run ht).trans (congrArg _ ((ownListWrite_accepted hl hc hr).trans
      (deferWrite_atOnce (by rwa [State.taken_render]) (by rwa [State.taken_render])))), ?_⟩
    simp only [State.finish_store, State.finish_render, State.setRender_store, State.setStore_store,
      State.setRender_render, State.taken_store, apply_list_same]
    exact ⟨trivial, fun m hm => apply_list_other _ hm _ _, rfl, rfl, trivial, rfl⟩
  case listWaits =>
    refine ⟨_, (run ht).trans (congrArg _ ((ownListWrite_accepted hl hc hr).trans
      (deferWrite_waits (by rwa [State.taken_render]) (by rwa [State.taken_render])))), ?_⟩
    simp only [State.setRender_store, State.taken_store, State.setRender_render, State.setRender_port]
    exact ⟨trivial, trivial, trivial⟩
  case symbolAtOnce =>
    refine ⟨_, (runSymbol ht).trans (congrArg _ ((ownSymbolWrite_accepted hid).trans
      (deferWrite_atOnce (by rwa [State.taken_render]) (by rwa [State.taken_render])))), ?_⟩
    simp only [State.finish_store, State.setRender_store, State.setStore_store, State.taken_store, apply_symbol_same]
    exact ⟨trivial, fun m hm => apply_symbol_other _ hm _, rfl, rfl, rfl⟩
  case symbolWaits =>
    refine ⟨_, (runSymbol ht).trans (congrArg _ ((ownSymbolWrite_accepted hid).trans
      (deferWrite_waits (by rwa [State.taken_render]) (by rwa [State.taken_render])))), ?_⟩
    simp only [State.setRender_store, State.taken_store, State.setRender_render, State.setRender_port]
    exact ⟨trivial, trivial, trivial⟩
  case applied =>
    have hexec : exec .deferredWriteApply s = .next s.applyDeferred :=
      congrArg Host.Outcome.next (if_pos (by rw [hj]; rfl))
    refine ⟨_, hexec.trans (congrArg _ (applyDeferred_only hd)), ?_⟩
    simp only [State.finish_store, State.finish_render, State.setRender_store, State.setStore_store,
      State.setRender_render]
    exact ⟨trivial, trivial, rfl⟩

end Sys2Proof.Machine
end

section
/-! TIMELINE SET, JUMP, CLEAR, STEPS, RUN and STOP (O30, O31). -/

namespace Sys2Proof.Machine

/-! ### A timeline stored and answered (R69) -/

/-- The status of a reply that compares a value with what the packet asked for (R2). -/
theorem okOr_bne {α : Type} [DecidableEq α] (a b : α) : okOr (a != b) = if a = b then .ok else .adjusted := by
  by_cases h : a = b
  · simp [h, okOr]
  · simp [h, okOr]

/-- A timeline command that stores timeline `n` as `v`: the other timelines stay, and the reply carries `v` (R69). -/
theorem answerTimeline_spec {i : Instr} {k : Kind} {p : Packet} {s : State} {n : Fin 4} {v : Timeline} {adjusted : Bool}
    (h : exec i s = .next ((s.taken k p).answerTimeline p.link n v adjusted)) :
    ∃ t, exec i s = .next t ∧ (∀ m, m ≠ n → t.timelines[m] = s.timelines[m]) ∧ t.timelines[n] = v ∧
      t.port p.link = Port.finish (okOr adjusted) v.result ((s.taken k p).port p.link) := by
  refine ⟨_, h, fun m hm => ?_, ?_, ?_⟩
  · rw [State.answerTimeline, State.finish_timelines, State.setTimeline_other _ hm, State.taken_timelines]
  · rw [State.answerTimeline, State.finish_timelines, State.setTimeline_same]
  · rw [State.answerTimeline, State.finish_port, State.setTimeline_port]

/-- A reverse timeline with a rate code 0 in force or held is served at another rate (R71). -/
theorem Timeline.servedSlow_iff (v : Timeline) :
    v.servedSlow = true ↔ v.reverse = true ∧ (v.rate = 0 ∨ v.nextRate = some 0) := by
  simp [Timeline.servedSlow]

/-- TIMELINE SET clamps a value or moves s exactly where the timeline then differs from what was asked for (R80). -/
theorem Timeline.setAdjusts_iff (t : Timeline) (payload : List Byte) :
    t.setAdjusts payload = true ↔
      (t.set payload).tf ≠ fieldNat payload 2 1 ∨ (t.set payload).lead ≠ fieldNat payload 3 1 ∨
        (t.set payload).tr ≠ fieldNat payload 4 1 ∨ (t.set payload).span ≠ fieldNat payload 5 1 ∨
        (t.set payload).s ≠ t.s := by
  simp only [Timeline.setAdjusts, Bool.or_eq_true, bne_iff_ne, or_assoc]

/-! ### The owners' cases (R80, R84, R85) -/

section Settings

variable {p : Packet} {s : State} {n : Fin 4}

theorem ownTimelineSet_outside (h : 4 ≤ p.arg.toNat) : ownTimelineSet p s = s.finish p.link .range [] := by
  simp [ownTimelineSet, indexOf_eq_none h]

theorem ownTimelineSet_moving (hn : p.arg.toNat = n.val) (h : s.timelines[n].moving = true) :
    ownTimelineSet p s = s.finish p.link .moving [] := by
  simp only [ownTimelineSet, indexOf_eq_some hn, h, if_true]

theorem ownTimelineSet_badRate (hn : p.arg.toNat = n.val) (h : s.timelines[n].moving = false)
    (hr : 7 < fieldNat p.payload 1 1) : ownTimelineSet p s = s.finish p.link .range [] := by
  simp only [ownTimelineSet, indexOf_eq_some hn, h, Bool.false_eq_true, if_false, hr, if_true]

theorem ownTimelineSet_stored (hn : p.arg.toNat = n.val) (h : s.timelines[n].moving = false)
    (hr : fieldNat p.payload 1 1 ≤ 7) :
    ownTimelineSet p s = s.answerTimeline p.link n (s.timelines[n].set p.payload)
      (s.timelines[n].setAdjusts p.payload || (s.timelines[n].set p.payload).servedSlow) := by
  simp only [ownTimelineSet, indexOf_eq_some hn, h, Bool.false_eq_true, if_false, if_neg (Nat.not_lt.2 hr)]

theorem ownTimelineJump_outside (h : 4 ≤ p.arg.toNat) : ownTimelineJump p s = s.finish p.link .range [] := by
  simp [ownTimelineJump, indexOf_eq_none h]

theorem ownTimelineJump_moving (hn : p.arg.toNat = n.val) (h : s.timelines[n].moving = true) :
    ownTimelineJump p s = s.finish p.link .moving [] := by
  simp only [ownTimelineJump, indexOf_eq_some hn, h, if_true]

theorem ownTimelineJump_stored (hn : p.arg.toNat = n.val) (h : s.timelines[n].moving = false) :
    ownTimelineJump p s = s.answerTimeline p.link n
      { s.timelines[n] with s := min (fieldNat p.payload 0 1) (s.timelines[n].span - 1) }
      (min (fieldNat p.payload 0 1) (s.timelines[n].span - 1) != fieldNat p.payload 0 1) := by
  simp only [ownTimelineJump, indexOf_eq_some hn, h, Bool.false_eq_true, if_false]

theorem ownTimelineClear_outside (h : 4 ≤ p.arg.toNat) : ownTimelineClear p s = s.finish p.link .range [] := by
  simp [ownTimelineClear, indexOf_eq_none h]

theorem ownTimelineClear_moving (hn : p.arg.toNat = n.val) (h : s.timelines[n].moving = true) :
    ownTimelineClear p s = s.finish p.link .moving [] := by
  simp only [ownTimelineClear, indexOf_eq_some hn, h, if_true]

theorem ownTimelineClear_stored (hn : p.arg.toNat = n.val) (h : s.timelines[n].moving = false) :
    ownTimelineClear p s = s.answerTimeline p.link n { s.timelines[n] with counter := 0, queued := 0 } false := by
  simp only [ownTimelineClear, indexOf_eq_some hn, h, Bool.false_eq_true, if_false]

end Settings

/-- Settles O30, by the owners' cases in their order. -/
theorem timelineSettings : Obligations.TimelineSettings := by
  have runSet {p : Packet} {s : State} (ht : takes .timelineSet p s = true) :
      exec (.timelineSet p) s = .next (ownTimelineSet p (s.taken .timelineSet p)) := exec_of_takes rfl ht
  have runJump {p : Packet} {s : State} (ht : takes .timelineJump p s = true) :
      exec (.timelineJump p) s = .next (ownTimelineJump p (s.taken .timelineJump p)) := exec_of_takes rfl ht
  have runClear {p : Packet} {s : State} (ht : takes .timelineClear p s = true) :
      exec (.timelineClear p) s = .next (ownTimelineClear p (s.taken .timelineClear p)) := exec_of_takes rfl ht
  refine ⟨fun p s h => ⟨fun ht => ?_, fun ht => ?_, fun ht => ?_⟩,
    fun p s n ht hn => ⟨fun h => ?setMoving, fun h hr => ?setBadRate, fun h hr => ?set⟩,
    fun p s n ht hn => ⟨fun h => ?jumpMoving, fun h => ?jump⟩, fun p s n ht hn => ⟨fun h => ?clearMoving, fun h => ?clear⟩⟩
  · rw [runSet ht, ownTimelineSet_outside h]
  · rw [runJump ht, ownTimelineJump_outside h]
  · rw [runClear ht, ownTimelineClear_outside h]
  case setMoving => rw [runSet ht, ownTimelineSet_moving hn (by rwa [State.taken_timelines])]
  case setBadRate => rw [runSet ht, ownTimelineSet_badRate hn (by rwa [State.taken_timelines]) hr]
  case set =>
    have own := ownTimelineSet_stored (s := s.taken .timelineSet p) hn (by rwa [State.taken_timelines]) hr
    rw [State.taken_timelines] at own
    obtain ⟨t, ht', hother, hv, hport⟩ := answerTimeline_spec ((runSet ht).trans (congrArg _ own))
    refine ⟨t, ht', hother, hv, _, by rw [hport, hv], okOr_eq_or _, ?_⟩
    rw [okOr_eq_adjusted_iff, Bool.or_eq_true, Timeline.setAdjusts_iff, Timeline.servedSlow_iff, hv]
    simp only [or_assoc]
  case jumpMoving => rw [runJump ht, ownTimelineJump_moving hn (by rwa [State.taken_timelines])]
  case jump =>
    have own := ownTimelineJump_stored (s := s.taken .timelineJump p) hn (by rwa [State.taken_timelines])
    rw [State.taken_timelines] at own
    obtain ⟨t, ht', hother, hv, hport⟩ := answerTimeline_spec ((runJump ht).trans (congrArg _ own))
    exact ⟨t, ht', hother, hv, by simp only [hport, hv, okOr_bne, min_eq_left_iff]⟩
  case clearMoving => rw [runClear ht, ownTimelineClear_moving hn (by rwa [State.taken_timelines])]
  case clear =>
    have own := ownTimelineClear_stored (s := s.taken .timelineClear p) hn (by rwa [State.taken_timelines])
    rw [State.taken_timelines] at own
    obtain ⟨t, ht', hother, hv, hport⟩ := answerTimeline_spec ((runClear ht).trans (congrArg _ own))
    exact ⟨t, ht', hother, hv, by rw [hport, hv]; rfl⟩

/-! ### The owners' cases (R81, R82, R83) -/

section RunControl

variable {p : Packet} {s : State} {n : Fin 4}

theorem ownTimelineSteps_outside (h : 4 ≤ p.arg.toNat) : ownTimelineSteps p s = s.finish p.link .range [] := by
  simp [ownTimelineSteps, indexOf_eq_none h]

theorem ownTimelineSteps_stored (hn : p.arg.toNat = n.val) :
    ownTimelineSteps p s = s.answerTimeline p.link n (s.timelines[n].steps (min (fieldNat p.payload 0 1) 15))
      (min (fieldNat p.payload 0 1) 15 != fieldNat p.payload 0 1) := by
  simp only [ownTimelineSteps, indexOf_eq_some hn]

theorem ownTimelineRun_outside (h : 4 ≤ p.arg.toNat) : ownTimelineRun p s = s.finish p.link .range [] := by
  simp [ownTimelineRun, indexOf_eq_none h]

theorem ownTimelineRun_badRate (hn : p.arg.toNat = n.val) (hp : p.payload ≠ []) (hr : 7 < fieldNat p.payload 0 1) :
    ownTimelineRun p s = s.finish p.link .range [] := by
  simp [ownTimelineRun, indexOf_eq_some hn, runRate, hp, hr]

/-- A RUN that is accepted: only one that gives a rate code is ever ADJUSTED (R71, R82). -/
theorem ownTimelineRun_stored (hn : p.arg.toNat = n.val) (h : p.payload = [] ∨ fieldNat p.payload 0 1 ≤ 7) :
    ownTimelineRun p s = s.answerTimeline p.link n (s.timelines[n].run (runRate p.payload))
      (!p.payload.isEmpty && (s.timelines[n].run (runRate p.payload)).servedSlow) := by
  by_cases hp : p.payload = []
  · simp [ownTimelineRun, indexOf_eq_some hn, runRate, hp]
  · have hr : ¬7 < fieldNat p.payload 0 1 := Nat.not_lt.2 (h.resolve_left hp)
    have he : p.payload.isEmpty = false := List.isEmpty_eq_false_iff.2 hp
    simp [ownTimelineRun, indexOf_eq_some hn, runRate, he, hr]

theorem ownTimelineStop_outside (h : 4 ≤ p.arg.toNat) : ownTimelineStop p s = s.finish p.link .range [] := by
  simp [ownTimelineStop, indexOf_eq_none h]

theorem ownTimelineStop_stored (hn : p.arg.toNat = n.val) :
    ownTimelineStop p s = s.answerTimeline p.link n s.timelines[n].stop false := by
  simp only [ownTimelineStop, indexOf_eq_some hn]

end RunControl

/-- RUN of a timeline with no step in progress arms it, at the rate code given (R82). -/
theorem Timeline.run_idle {t : Timeline} (rate : Option Nat) (h : t.state = .stopped ∨ t.state = .armed) :
    t.run rate = { t with state := .armed, rate := rate.getD t.rate } := by
  cases t; rcases h with rfl | rfl <;> rfl

/-- RUN of a timeline with a step in progress goes on stepping, the rate code given held for the next step (R82). -/
theorem Timeline.run_moving {t : Timeline} (rate : Option Nat) (h : t.state = .stepping ∨ t.state = .stopping) :
    t.run rate = { t with state := .stepping, nextRate := rate.or t.nextRate } := by
  cases t; rcases h with rfl | rfl <;> rfl

/-- The state after STOP (R83). -/
def TimelineState.afterStop (v : TimelineState) : TimelineState :=
  match v with
  | .armed => .stopped
  | .stepping => .stopping
  | .stopped => .stopped
  | .stopping => .stopping

/-- STOP changes the state alone (R83). -/
theorem Timeline.stop_eq (t : Timeline) : t.stop = { t with state := t.state.afterStop } := by
  obtain ⟨state, _⟩ := t; cases state <;> rfl

/-- Settles O31, by the owners' cases in their order. -/
theorem timelineRunControl : Obligations.TimelineRunControl := by
  have runSteps {p : Packet} {s : State} (ht : takes .timelineSteps p s = true) :
      exec (.timelineSteps p) s = .next (ownTimelineSteps p (s.taken .timelineSteps p)) := exec_of_takes rfl ht
  have runRun {p : Packet} {s : State} (ht : takes .timelineRun p s = true) :
      exec (.timelineRun p) s = .next (ownTimelineRun p (s.taken .timelineRun p)) := exec_of_takes rfl ht
  have runStop {p : Packet} {s : State} (ht : takes .timelineStop p s = true) :
      exec (.timelineStop p) s = .next (ownTimelineStop p (s.taken .timelineStop p)) := exec_of_takes rfl ht
  refine ⟨fun v => rfl, fun p s h => ⟨fun ht => ?_, fun ht => ?_, fun ht => ?_⟩, fun p s n ht hn => ?steps,
    fun p s n ht hn => ⟨fun hp hr => ?badRate, fun h => ?run⟩, fun p s n ht hn => ?stop⟩
  · rw [runSteps ht, ownTimelineSteps_outside h]
  · rw [runRun ht, ownTimelineRun_outside h]
  · rw [runStop ht, ownTimelineStop_outside h]
  case steps =>
    have own := ownTimelineSteps_stored (s := s.taken .timelineSteps p) hn
    rw [State.taken_timelines] at own
    obtain ⟨t, ht', hother, hv, hport⟩ := answerTimeline_spec ((runSteps ht).trans (congrArg _ own))
    exact ⟨t, ht', hother, hv, by rw [hport, hv, okOr_bne]⟩
  case badRate => rw [runRun ht, ownTimelineRun_badRate hn hp hr]
  case run =>
    have own := ownTimelineRun_stored (s := s.taken .timelineRun p) hn h
    rw [State.taken_timelines] at own
    obtain ⟨t, ht', hother, hv, hport⟩ := answerTimeline_spec ((runRun ht).trans (congrArg _ own))
    have hrate : runRate p.payload = if p.payload = [] then none else some (fieldNat p.payload 0 1) := by
      simp [runRate]
    refine ⟨t, ht', hother, fun hi => ?_, fun hm => ?_, ?_⟩
    · rw [hv, Timeline.run_idle _ hi, hrate]
    · rw [hv, Timeline.run_moving _ hm, hrate]
    · rw [hport, hv]
      simp only [okOr, Bool.and_eq_true, Timeline.servedSlow_iff, Bool.not_eq_true', List.isEmpty_eq_false_iff]
  case stop =>
    have own := ownTimelineStop_stored (s := s.taken .timelineStop p) hn
    rw [State.taken_timelines] at own
    obtain ⟨t, ht', hother, hv, hport⟩ := answerTimeline_spec ((runStop ht).trans (congrArg _ own))
    exact ⟨t, ht', hother, by rw [hv, Timeline.stop_eq]; rfl, by rw [hport, hv]; rfl⟩

end Sys2Proof.Machine
end

section
/-! BLINK SET and the blink generators at a frame start (O36). -/

namespace Sys2Proof.Machine

/-! ### One generator at a frame start (R88, R91) -/

section Frame

variable {b : Blink} (start : Nat)

/-- A disabled generator stands at 0 and ON (R88). -/
theorem Blink.frame_disabled (hl : b.legal) (he : b.enabled = false) :
    b.frame start = { b with enabledAt := none } := by
  obtain ⟨-, -, -, -, -, -, hd⟩ := hl
  obtain ⟨hc, ho⟩ := hd he
  simp [Blink.frame, Blink.count, he, hc, ho]

/-- At the end of its cycle a generator takes up a staged pair and starts ON (R88). -/
theorem Blink.frame_cycleEnd (hl : b.legal) (he : b.enabled = true) (hc : b.counter + 1 = b.period) :
    b.frame start = b.cycled := by
  obtain ⟨-, -, hon, -, -, hstaged, -⟩ := hl
  cases hs : b.staged with
  | none => simp [Blink.frame, Blink.count, Blink.cycled, he, hc, hs, Nat.lt_of_succ_le hon]
  | some pair =>
    obtain ⟨p, c⟩ := pair
    obtain ⟨-, -, hpos, -⟩ := hstaged p c hs
    simp [Blink.frame, Blink.count, Blink.cycled, he, hc, hs, Nat.lt_of_succ_le hpos]

/-- Within its cycle a generator counts on, ON below the on-count or where it was enabled at this very instant (R88, R91, log 31). -/
theorem Blink.frame_counts (hl : b.legal) (he : b.enabled = true) (hc : b.counter + 1 ≠ b.period) :
    b.frame start = { b with
      counter := b.counter + 1
      on := decide (b.counter + 1 < b.onCount ∨ b.enabledAt = some start)
      enabledAt := none } := by
  obtain ⟨-, -, -, -, hbelow, -, -⟩ := hl
  have hmid : ¬b.period ≤ b.counter + 1 := by omega
  simp [Blink.frame, Blink.count, he, hmid, Bool.decide_or, Bool.beq_eq_decide_eq]

end Frame

/-! ### BLINK_CYCLE_END and FRAME_START (R88, log 6) -/

/-- A generator whose cycle ends handles the frame start now due ahead of the rest; the other generators stay (R88). -/
theorem blinkCycleEnd_acts {s : State} {n : Fin 4} (hl : s.blinks[n].legal) (he : s.blinks[n].enabled = true)
    (hc : s.blinks[n].counter + 1 = s.blinks[n].period) (ha : FramePart.blink n ∉ s.ahead) :
    ∃ t, exec (.blinkCycleEnd n) s = .next t ∧ (∀ m, m ≠ n → t.blinks[m] = s.blinks[m]) ∧
      t.blinks[n] = s.blinks[n].cycled ∧ t.timing.frame = s.dueFrame := by
  have hends : s.blinks[n].cycleEnds = true := by simp [Blink.cycleEnds, -Fin.getElem_fin, he, hc]
  have hact : (s.blinks[n].cycleEnds && !s.isAhead (.blink n)) = true := by rw [hends, isAhead_eq_false ha]; rfl
  have hblinks : s.enterFrame.blinks = s.blinks := (frame_enterFrame s).blinks_eq (by simp)
  refine ⟨_, congrArg Host.Outcome.next (if_pos hact), fun m hm => ?_, ?_, ?_⟩
  · rw [State.markAhead_blinks, State.setBlink_other _ hm, hblinks]
  · rw [State.markAhead_blinks, State.setBlink_same, hblinks, Blink.frame_cycleEnd _ hl he hc]
  · rw [State.markAhead_timing, State.setBlink_timing, enterFrame_frame]

/-- A generator that has not acted ahead handles the frame start with FRAME_START, at the instant that begins the frame (R88). -/
theorem frameStart_blinks (order : List FramePart) {s : State} {n : Fin 4} (ha : FramePart.blink n ∉ s.ahead) :
    ∃ t, exec (.frameStart order) s = .next t ∧ t.blinks[n] = s.blinks[n].frame t.timing.began := by
  obtain ⟨t, ht, hf⟩ := frameStart_next order s
  obtain ⟨hbegan, -⟩ := framed_schedule s.enterFrame
  have hahead : s.enterFrame.isAhead (.blink n) = false := by
    rw [enterFrame_isAhead s (by simp), isAhead_eq_false ha]
  refine ⟨t, ht, ?_⟩
  rw [hf.blinks_eq (by simp), hf.timing_eq (by simp) (by simp), hbegan, framed_blinks, blinkFrame_blinks, hahead,
    (frame_enterFrame s).blinks_eq (by simp)]
  rfl

/-! ### BLINK SET (R90) -/

/-- The period that a BLINK SET carries, clamped (R90). -/
def blinkPeriod (p : Packet) : Nat := clampNat (fieldNat p.payload 0 1) 2 255

/-- The on-count that a BLINK SET carries, clamped by the clamped period (R90). -/
def blinkOnCount (p : Packet) : Nat := clampNat (fieldNat p.payload 1 1) 1 (blinkPeriod p - 1)

section Set

variable {p : Packet} {s : State} {n : Fin 4}

theorem ownBlinkSet_outside (h : 4 ≤ p.arg.toNat) : ownBlinkSet p s = s.finish p.link .range [] := by
  simp [ownBlinkSet, indexOf_eq_none h]

theorem ownBlinkSet_stored (hn : p.arg.toNat = n.val) :
    ownBlinkSet p s =
      (s.setBlink n (s.blinks[n].set (blinkPeriod p) (blinkOnCount p) (fieldFlag p.payload 2) s.timing.now)).finish p.link
        (okOr (blinkPeriod p != fieldNat p.payload 0 1 || blinkOnCount p != fieldNat p.payload 1 1))
        (s.blinks[n].set (blinkPeriod p) (blinkOnCount p) (fieldFlag p.payload 2) s.timing.now).result := by
  simp only [ownBlinkSet, indexOf_eq_some hn]
  rfl

end Set

/-- The pair waits on an enabled generator that the command keeps enabled, and is applied at once on any other (R90). -/
theorem Blink.set_eq (b : Blink) (period onCount : Nat) (enable : Bool) (now : Nat) :
    b.set period onCount enable now =
      if b.enabled = true ∧ enable = true then { b with staged := some (period, onCount) }
      else ⟨enable, 0, period, onCount, none, true, if enable = true then some now else none⟩ := by
  simp [Blink.set]

/-- The status of a reply that compares two values with what the packet asked for (R2). -/
theorem okOr_bne_or {α β : Type} [DecidableEq α] [DecidableEq β] (a b : α) (c d : β) :
    okOr (a != b || c != d) = if a = b ∧ c = d then .ok else .adjusted := by
  by_cases h : a = b
  · subst h; simpa using okOr_bne c d
  · simp [h, okOr]

/-- Settles O36: BLINK SET by its owner's cases, and one generator's handling of a frame start by each of the two rows. -/
theorem blinkGeneratorsCycle : Obligations.BlinkGeneratorsCycle := by
  have run {p : Packet} {s : State} (ht : takes .blinkSet p s = true) :
      exec (.blinkSet p) s = .next (ownBlinkSet p (s.taken .blinkSet p)) := exec_of_takes rfl ht
  refine ⟨fun p s ht h => ?outside, fun p s n ht hn => ?stored, fun s n => blinkCycleEnd_acts,
    fun order s n hl ha => ?frameStart⟩
  case outside => rw [run ht, ownBlinkSet_outside h]
  case stored =>
    have own := ownBlinkSet_stored (s := s.taken .blinkSet p) hn
    rw [State.taken_blinks, State.taken_timing, okOr_bne_or] at own
    refine ⟨_, (run ht).trans (congrArg _ own), fun m hm => ?_, ?_, ?_⟩
    · rw [State.finish_blinks, State.setBlink_other _ hm, State.taken_blinks]
    · rw [State.finish_blinks, State.setBlink_same, Blink.set_eq]
      rfl
    · rw [State.finish_blinks, State.setBlink_same, State.finish_port, State.setBlink_port]
      rfl
  case frameStart =>
    obtain ⟨t, ht, hb⟩ := frameStart_blinks order ha
    exact ⟨t, ht, fun he => hb.trans (Blink.frame_disabled _ hl he),
      fun he hc => hb.trans (Blink.frame_cycleEnd _ hl he hc), fun he hc => hb.trans (Blink.frame_counts _ hl he hc)⟩

end Sys2Proof.Machine
end

section
/-! NUDGE and OFFSET: what is accepted, clamped, made pending and answered (O10). -/

namespace Sys2Proof.Machine

/-! ### The owners' cases (R14, R16) -/

/-- The amount that a NUDGE carries, clamped (R14). -/
def nudgeAmount (p : Packet) : Int := clampInt (fieldInt p.payload 0) (-15) 16

section Phase

variable {p : Packet} {s : State}

theorem ownNudge_refused {n : PendingNudge} (h : s.timing.nudge = some n) :
    ownNudge p s = s.finish p.link .nudgePending [] := by
  simp [ownNudge, h]

theorem ownNudge_accepted (h : s.timing.nudge = none) :
    ownNudge p s =
      (s.setTiming { s.timing with
        nudge := if nudgeAmount p = 0 then none
          else some ⟨nudgeAmount p, s.timing.now, s.timing.pendingOffset.isSome, none⟩ }).finish p.link
        (okOr (nudgeAmount p != fieldInt p.payload 0)) (signed2 (nudgeAmount p)) := by
  unfold ownNudge
  rw [h]
  change (s.setTiming (if nudgeAmount p = 0 then s.timing else _)).finish _ _ _ = _
  by_cases hv : nudgeAmount p = 0
  · rw [if_pos hv, if_pos hv, ← h]
    rfl
  · rw [if_neg hv, if_neg hv]
    rfl

/-- The offset that an OFFSET carries, clamped to the raster (R16). -/
def offsetAsked (p : Packet) (t : Timing) : Nat := min (fieldNat p.payload 0 4) (t.total - 1)

theorem ownOffset_eq :
    ownOffset p s =
      (s.setTiming { s.timing with pendingOffset := some (offsetAsked p s.timing), nudge := none }).finish p.link
        (okOr (offsetAsked p s.timing != fieldNat p.payload 0 4)) (bytes4 (offsetAsked p s.timing)) := rfl

end Phase

/-- Settles O10: each of the two commands by its owner's cases. -/
theorem phaseCommandsAccepted : Obligations.PhaseCommandsAccepted := by
  refine ⟨fun p s n ht hn => ?refused, fun p s ht hn => ?nudge, fun p s ht => ?offset⟩
  case refused =>
    have hpending : (s.taken .nudge p).timing.nudge = some n := by rw [State.taken_timing]; exact hn
    rw [exec_of_takes (own := ownNudge) rfl ht, ownNudge_refused hpending]
  case nudge =>
    have hfree : (s.taken .nudge p).timing.nudge = none := by rw [State.taken_timing]; exact hn
    have hown := ownNudge_accepted (p := p) hfree
    rw [State.taken_timing, okOr_bne] at hown
    refine ⟨_, (exec_of_takes (own := ownNudge) rfl ht).trans (congrArg _ hown), ?_⟩
    rw [State.finish_timing, State.finish_port, State.setTiming_port]
    exact ⟨rfl, rfl, rfl, rfl, rfl, rfl⟩
  case offset =>
    have hown := ownOffset_eq (p := p) (s := s.taken .offset p)
    rw [State.taken_timing, okOr_bne] at hown
    refine ⟨_, (exec_of_takes (own := ownOffset) rfl ht).trans (congrArg _ hown), ?_⟩
    rw [State.finish_timing, State.finish_port, State.setTiming_port]
    exact ⟨rfl, rfl, rfl, rfl, rfl, rfl, rfl, rfl, rfl, rfl⟩

end Sys2Proof.Machine
end

section
/-! The station reference: pulses, decision instants and the holdover count (O7, O8). -/

namespace Sys2Proof.Machine

/-! ### A change of reference state (R13) -/

section Notify

variable (s : State)

@[simp] theorem State.notifyReference_timing (before : RefState) : (s.notifyReference before).timing = s.timing :=
  (frame_notifyReference s before).timing_eq (by simp) (by simp)

theorem State.notifyReference_port (before : RefState) (l : Link) :
    (s.notifyReference before).port l =
      if s.timing.refState = before then s.port l
      else Port.notify ((Notice.reference s.timing.refState).packet s.timing.frame) (s.port l) := by
  unfold State.notifyReference
  split
  · rfl
  · cases l
    · rw [State.notify_port_other _ (by decide), State.notify_port]
    · rw [State.notify_port, State.notify_timing, State.notify_port_other _ (by decide)]

/-- From `s` to `t` a change of reference state is notified on each link, with the frame number current, and nothing else is queued
(R13). -/
def ReferenceNoticed (s t : State) : Prop :=
  ∀ l, t.port l =
    if t.timing.refState = s.timing.refState then s.port l
    else Port.notify ((Notice.reference t.timing.refState).packet s.timing.frame) (s.port l)

/-- The generator's items replaced at instant `time`, with the notices of a change of reference state (R13). -/
theorem changeReference_spec (time : Nat) {v : Timing} (hf : v.frame = s.timing.frame) :
    (((s.advanceTo time).setTiming v).notifyReference s.timing.refState).timing = v ∧
      ReferenceNoticed s (((s.advanceTo time).setTiming v).notifyReference s.timing.refState) := by
  refine ⟨by rw [State.notifyReference_timing, State.setTiming_timing], fun l => ?_⟩
  rw [State.notifyReference_port, State.notifyReference_timing, State.setTiming_timing, State.setTiming_port,
    State.advanceTo_port, hf]

end Notify

/-! ### The moves of the generator (R7-R9) -/

/-- The generator with the clock at an instant. -/
def Timing.atInstant (t : Timing) (n : Nat) : Timing := { t with now := n }

theorem State.advanceTo_timing_eq (s : State) (time : Nat) :
    (s.advanceTo time).timing = s.timing.atInstant (max s.timing.now time) := State.advanceTo_timing s time

section Moves

variable (t : Timing) (p : Nat)

theorem goneFree_goFree : goneFree t t.goFree := ⟨rfl, rfl, rfl, rfl, rfl, rfl, rfl, rfl, rfl⟩

theorem realignedOn_goAcquire : realignedOn t (t.goAcquire p) p := ⟨rfl, rfl, rfl⟩

end Moves

/-! ### A pulse, row by row of Table 1-3 -/

section Pulse

variable {t : Timing} {e p : Nat}

theorem Timing.moveOn_expected (h : t.expected = some e) : t.moveOn.expected = some (e + t.total) := by
  simp [Timing.moveOn, h]

theorem inWindowOf_iff : inWindowOf e p = true ↔ inWindowAt e p := by simp [inWindowOf]

theorem inWindowOf_eq_false (h : ¬inWindowAt e p) : inWindowOf e p = false := by
  rwa [← inWindowOf_iff, Bool.not_eq_true] at h

theorem Timing.pulse_free (hr : t.refState = .free) : t.pulse p = t.goAcquire p := by
  unfold Timing.pulse
  rw [hr]
  cases t.expected <;> rfl

theorem Timing.pulse_acquire_counts (he : t.expected = some e) (hr : t.refState = .acquire) (hw : inWindowAt e p)
    (hc : t.inWindow < 3) : t.pulse p = { t.moveOn with inWindow := t.inWindow + 1 } := by
  have hfew : t.inWindow + 1 < 4 := by omega
  simp [Timing.pulse, he, hr, inWindowOf_iff.2 hw, hfew]

theorem Timing.pulse_acquire_locks (he : t.expected = some e) (hr : t.refState = .acquire) (hw : inWindowAt e p)
    (hc : 3 ≤ t.inWindow) : t.pulse p = { t.moveOn with refState := .locked, inWindow := 0, mismatch := 0 } := by
  have hfourth : ¬t.inWindow + 1 < 4 := by omega
  simp [Timing.pulse, he, hr, inWindowOf_iff.2 hw, hfourth]

theorem Timing.pulse_acquire_out (he : t.expected = some e) (hr : t.refState = .acquire) (hw : ¬inWindowAt e p) :
    t.pulse p = { t.realign p with inWindow := 0 } := by
  simp [Timing.pulse, he, hr, inWindowOf_eq_false hw]

theorem Timing.pulse_locked_in (he : t.expected = some e) (hr : t.refState = .locked) (hw : inWindowAt e p) :
    t.pulse p = { t.moveOn with mismatch := 0 } := by
  simp [Timing.pulse, he, hr, inWindowOf_iff.2 hw]

theorem Timing.pulse_locked_first (he : t.expected = some e) (hr : t.refState = .locked) (hw : ¬inWindowAt e p)
    (hm : t.mismatch = 0) : t.pulse p = { t with mismatch := 1, pulseSeen := true } := by
  simp [Timing.pulse, he, hr, inWindowOf_eq_false hw, hm]

theorem Timing.pulse_locked_second (he : t.expected = some e) (hr : t.refState = .locked) (hw : ¬inWindowAt e p)
    (hm : t.mismatch ≠ 0) : t.pulse p = t.goAcquire p := by
  simp [Timing.pulse, he, hr, inWindowOf_eq_false hw, hm]

theorem Timing.pulse_holdover_in (he : t.expected = some e) (hr : t.refState = .holdover) (hw : inWindowAt e p) :
    t.pulse p = { t.moveOn with refState := .locked, holdover := 0, mismatch := 0 } := by
  simp [Timing.pulse, he, hr, inWindowOf_iff.2 hw]

theorem Timing.pulse_holdover_out (he : t.expected = some e) (hr : t.refState = .holdover) (hw : ¬inWindowAt e p) :
    t.pulse p = t.goAcquire p := by
  simp [Timing.pulse, he, hr, inWindowOf_eq_false hw]

/-- No pulse changes the frame number (R7). -/
theorem Timing.pulse_frame (t : Timing) (p : Nat) : (t.pulse p).frame = t.frame := by
  unfold Timing.pulse
  split
  · rfl
  · split
    case h_2 => split <;> rfl
    case h_5 => split <;> rfl
    all_goals rfl

end Pulse

/-- REFERENCE_PULSE is the pulse at its instant, or now where the clock stands past it, with the notices of a change (R7, R13). -/
theorem referencePulse_spec (time : Nat) (s : State) :
    ∃ t, exec (.referencePulse time) s = .next t ∧
      t.timing = (s.timing.atInstant (max s.timing.now time)).pulse (max s.timing.now time) ∧
      ReferenceNoticed s t := by
  have hexec : exec (.referencePulse time) s =
      .next (((s.advanceTo time).setTiming ((s.advanceTo time).timing.pulse (s.advanceTo time).timing.now)).notifyReference
        (s.advanceTo time).timing.refState) := rfl
  rw [State.advanceTo_timing_eq] at hexec
  obtain ⟨htiming, hports⟩ := changeReference_spec s time
    (Timing.pulse_frame (s.timing.atInstant (max s.timing.now time)) (max s.timing.now time))
  exact ⟨_, hexec, htiming, hports⟩

/-- Settles O7: the pulse by the rows of Table 1-3, and its notices. -/
theorem pulseFollowsTable : Obligations.PulseFollowsTable := by
  intro time s
  obtain ⟨t, hexec, htiming, hports⟩ := referencePulse_spec time s
  refine ⟨t, hexec, fun hr => ?free, fun e he => ⟨fun hr hw hc => ?acquireCounts, fun hr hw hc => ?acquireLocks,
    fun hr hw => ?acquireOut, fun hr hw => ?lockedIn, fun hr hw hm => ?lockedFirst, fun hr hw hm => ?lockedSecond,
    fun hr hw => ?holdoverIn, fun hr hw => ?holdoverOut⟩, hports⟩
  case free =>
    rw [htiming.trans (Timing.pulse_free hr)]
    exact ⟨rfl, rfl, realignedOn_goAcquire _ _⟩
  case acquireCounts =>
    rw [htiming.trans (Timing.pulse_acquire_counts he hr hw hc)]
    exact ⟨hr, rfl, Timing.moveOn_expected he, rfl, rfl⟩
  case acquireLocks =>
    rw [htiming.trans (Timing.pulse_acquire_locks he hr hw hc)]
    exact ⟨rfl, rfl, rfl, Timing.moveOn_expected he, rfl, rfl⟩
  case acquireOut =>
    rw [htiming.trans (Timing.pulse_acquire_out he hr hw)]
    exact ⟨hr, rfl, rfl, rfl, rfl⟩
  case lockedIn =>
    rw [htiming.trans (Timing.pulse_locked_in he hr hw)]
    exact ⟨hr, rfl, Timing.moveOn_expected he, rfl, rfl⟩
  case lockedFirst => exact htiming.trans (Timing.pulse_locked_first he hr hw hm)
  case lockedSecond =>
    rw [htiming.trans (Timing.pulse_locked_second he hr hw hm)]
    exact ⟨rfl, rfl, rfl, realignedOn_goAcquire _ _⟩
  case holdoverIn =>
    rw [htiming.trans (Timing.pulse_holdover_in he hr hw)]
    exact ⟨rfl, rfl, rfl, Timing.moveOn_expected he, rfl, rfl⟩
  case holdoverOut =>
    rw [htiming.trans (Timing.pulse_holdover_out he hr hw)]
    exact ⟨rfl, rfl, rfl, realignedOn_goAcquire _ _⟩

end Sys2Proof.Machine
end

section
/-! What a frame start keeps of the generator: the items of the reference through the generator's own step, and the schedule through
the rest of the frame start. -/

namespace Sys2Proof.Machine

/-- The items of the reference are the same in both (R7-R12). -/
structure Timing.SameReference (before after : Timing) : Prop where
  refState : after.refState = before.refState
  expected : after.expected = before.expected
  pulseSeen : after.pulseSeen = before.pulseSeen
  inWindow : after.inWindow = before.inWindow
  mismatch : after.mismatch = before.mismatch
  holdover : after.holdover = before.holdover

/-- The frame schedule, the offset and the nudge are the same in both (R5, R15, R17). -/
structure Timing.SameSchedule (before after : Timing) : Prop where
  frame : after.frame = before.frame
  began : after.began = before.began
  scheduled : after.scheduled = before.scheduled
  offset : after.offset = before.offset
  pendingOffset : after.pendingOffset = before.pendingOffset
  nudge : after.nudge = before.nudge

theorem Timing.SameReference.trans {a b c : Timing} (h : a.SameReference b) (g : b.SameReference c) : a.SameReference c :=
  ⟨g.refState.trans h.refState, g.expected.trans h.expected, g.pulseSeen.trans h.pulseSeen, g.inWindow.trans h.inWindow,
    g.mismatch.trans h.mismatch, g.holdover.trans h.holdover⟩

theorem Timing.SameSchedule.trans {a b c : Timing} (h : a.SameSchedule b) (g : b.SameSchedule c) : a.SameSchedule c :=
  ⟨g.frame.trans h.frame, g.began.trans h.began, g.scheduled.trans h.scheduled, g.offset.trans h.offset,
    g.pendingOffset.trans h.pendingOffset, g.nudge.trans h.nudge⟩

section Kept

variable (t : Timing) (s : State)

theorem Timing.applyNudge_sameReference : t.SameReference t.applyNudge := by
  unfold Timing.applyNudge
  split
  · exact ⟨rfl, rfl, rfl, rfl, rfl, rfl⟩
  · split <;> exact ⟨rfl, rfl, rfl, rfl, rfl, rfl⟩

theorem Timing.beginFrame_sameReference : t.SameReference t.beginFrame := by
  unfold Timing.beginFrame Timing.applyOffset
  split <;> exact ⟨rfl, rfl, rfl, rfl, rfl, rfl⟩

theorem Timing.frameStart_sameReference : t.SameReference t.frameStart :=
  t.applyNudge_sameReference.trans t.applyNudge.beginFrame_sameReference

/-- Entering a frame start is no event of the reference (R5). -/
theorem enterFrame_sameReference : s.timing.SameReference s.enterFrame.timing := by
  cases hg : s.isAhead .generator with
  | true => rw [enterFrame_entered hg]; exact ⟨rfl, rfl, rfl, rfl, rfl, rfl⟩
  | false =>
    rw [enterFrame_timing hg]
    obtain ⟨hr, he, hp, hi, hm, hh⟩ := s.timing.frameStart_sameReference
    exact ⟨hr, he, hp, hi, hm, hh⟩

/-- The schedule after a frame start is entered is that of the generator's own step (R5). -/
theorem enterFrame_sameSchedule (hg : FramePart.generator ∉ s.ahead) :
    s.timing.frameStart.SameSchedule s.enterFrame.timing := by
  rw [enterFrame_timing (isAhead_eq_false hg)]
  exact ⟨rfl, rfl, rfl, rfl, rfl, rfl⟩

theorem Timing.holdoverFrame_sameSchedule : t.SameSchedule t.holdoverFrame := by
  rw [t.holdoverFrame_eq]
  exact ⟨rfl, rfl, rfl, rfl, rfl, rfl⟩

/-- What the blocks do at an entered frame start leaves the schedule (R5, R12). -/
theorem framed_sameSchedule : s.timing.SameSchedule s.framed.timing := by
  rw [framed_timing, holdoverFrame_timing]
  split
  · exact ⟨rfl, rfl, rfl, rfl, rfl, rfl⟩
  · exact s.timing.holdoverFrame_sameSchedule

end Kept

/-! ### The holdover count (R12) -/

section Holdover

variable {t : Timing}

theorem Timing.holdoverFrame_other (h : t.refState ≠ .holdover) : t.holdoverFrame = t := by
  unfold Timing.holdoverFrame
  split
  case h_4 hr => exact absurd hr h
  all_goals rfl

theorem Timing.holdoverFrame_counts (hr : t.refState = .holdover) (hc : t.holdover < 249) :
    t.holdoverFrame = { t with holdover := t.holdover + 1 } := by
  have hbelow : t.holdover + 1 < holdoverLimit := by rw [holdoverLimit]; omega
  simp [Timing.holdoverFrame, hr, hbelow]

theorem Timing.holdoverFrame_ends (hr : t.refState = .holdover) (hc : t.holdover = 249) : t.holdoverFrame = t.goFree := by
  simp [Timing.holdoverFrame, hr, hc, holdoverLimit]

theorem Timing.holdoverEnds_iff : t.holdoverEnds = true ↔ t.refState = .holdover ∧ 249 ≤ t.holdover := by
  simp [Timing.holdoverEnds, holdoverLimit]

end Holdover

/-- FRAME_START where the holdover count has not handled the frame start: the entered frame start's generator, then its holdover
count (R5, R12). -/
theorem frameStart_holdover (order : List FramePart) {s : State} (ha : FramePart.reference ∉ s.ahead) :
    ∃ t, exec (.frameStart order) s = .next t ∧ t.timing = s.enterFrame.timing.holdoverFrame := by
  obtain ⟨t, ht, htiming, -⟩ := frameStart_timing order s
  have hahead : s.enterFrame.isAhead .reference = false := by
    rw [enterFrame_isAhead s (by simp), isAhead_eq_false ha]
  refine ⟨t, ht, ?_⟩
  rw [htiming, framed_timing, holdoverFrame_timing, hahead]
  rfl

end Sys2Proof.Machine
end

section
/-! Decision instants and the end of holdover (O8). -/

namespace Sys2Proof.Machine

/-! ### A decision instant, by reference state (R9-R12) -/

section Decision

variable {t : Timing}

theorem Timing.decision_acquire_lost (hr : t.refState = .acquire) (hp : t.pulseSeen = false) : t.decision = t.goFree := by
  simp [Timing.decision, hr, hp]

theorem Timing.decision_locked_lost (hr : t.refState = .locked) (hp : t.pulseSeen = false) :
    t.decision = { t.moveOn with refState := .holdover, holdover := 0, mismatch := 0 } := by
  simp [Timing.decision, hr, hp]

theorem Timing.decision_locked_seen (hr : t.refState = .locked) (hp : t.pulseSeen = true) : t.decision = t.moveOn := by
  simp [Timing.decision, hr, hp]

theorem Timing.decision_holdover (hr : t.refState = .holdover) : t.decision = t.moveOn := by
  simp [Timing.decision, hr]

/-- No decision changes the frame number (R7). -/
theorem Timing.decision_frame (t : Timing) : t.decision.frame = t.frame := by
  unfold Timing.decision
  split <;> rfl

/-- No decision moves the clock. -/
theorem Timing.decision_now (t : Timing) : t.decision.now = t.now := by
  unfold Timing.decision
  split <;> rfl

end Decision

/-- DECISION_INSTANT is the decision half a frame after the expected instant, with the notices of a change (R7, R13). -/
theorem decisionInstant_spec {s : State} {e : Nat} (he : s.timing.expected = some e) :
    ∃ t, exec .decisionInstant s = .next t ∧
      t.timing = (s.timing.atInstant (max s.timing.now (e + s.timing.rate.half))).decision ∧
      ReferenceNoticed s t := by
  have hexec : exec .decisionInstant s =
      .next (((s.advanceTo (e + s.timing.rate.half)).setTiming
        (s.advanceTo (e + s.timing.rate.half)).timing.decision).notifyReference
          (s.advanceTo (e + s.timing.rate.half)).timing.refState) := by
    simp only [exec, execDecisionInstant, he]
  rw [State.advanceTo_timing_eq] at hexec
  obtain ⟨htiming, hports⟩ := changeReference_spec s (e + s.timing.rate.half)
    (Timing.decision_frame (s.timing.atInstant (max s.timing.now (e + s.timing.rate.half))))
  exact ⟨_, hexec, htiming, hports⟩

/-! ### HOLDOVER_EXPIRY (R12, log 6) -/

/-- At the 250th frame start in HOLDOVER the row enters it, makes the generator FREE and queues its notices under its number. -/
theorem holdoverExpiry_acts {s : State} (hr : s.timing.refState = .holdover) (hc : s.timing.holdover = 249)
    (ha : FramePart.reference ∉ s.ahead) :
    ∃ t, exec .holdoverExpiry s = .next t ∧ t.timing = s.enterFrame.timing.goFree ∧
      ∀ l, t.port l = Port.notify ((Notice.reference .free).packet s.dueFrame) (s.port l) := by
  have hact : (s.timing.holdoverEnds && !s.isAhead .reference) = true := by
    rw [Timing.holdoverEnds_iff.2 ⟨hr, hc.ge⟩, isAhead_eq_false ha]
    rfl
  have hchange : s.enterFrame.timing.goFree.refState ≠ s.enterFrame.timing.refState := by
    rw [(enterFrame_sameReference s).refState, hr]
    exact fun h => nomatch h
  refine ⟨_, congrArg Host.Outcome.next (if_pos hact), ?_, fun l => ?_⟩
  · rw [State.notifyReference_timing, State.markAhead_timing, State.setTiming_timing]
  · rw [State.notifyReference_port, State.markAhead_timing, State.setTiming_timing, if_neg hchange, State.markAhead_port,
      State.setTiming_port, (frame_enterFrame s).port_eq l (by simp), ← enterFrame_frame]
    rfl

/-- Settles O8: the decision by reference state, and the holdover count below and at its limit. -/
theorem lossOfReferenceActs : Obligations.LossOfReferenceActs := by
  refine ⟨fun s e he _ => ?decision, fun s hr hc ha => ?ends, fun order s hr hc ha => ?counts⟩
  case decision =>
    obtain ⟨t, hexec, htiming, hports⟩ := decisionInstant_spec he
    refine ⟨t, hexec, ?now, fun hr hp => ?acquire, fun hr hp => ?locked, fun hr hp => ?seen, fun hr => ?holdover, hports⟩
    case now => rw [htiming, Timing.decision_now]; rfl
    case acquire =>
      rw [htiming.trans (Timing.decision_acquire_lost hr hp)]
      exact goneFree_goFree _
    case locked =>
      rw [htiming.trans (Timing.decision_locked_lost hr hp)]
      exact ⟨rfl, rfl, rfl, Timing.moveOn_expected he, rfl, rfl⟩
    case seen =>
      rw [htiming.trans (Timing.decision_locked_seen hr hp)]
      exact ⟨hr, rfl, Timing.moveOn_expected he, rfl, rfl⟩
    case holdover =>
      rw [htiming.trans (Timing.decision_holdover hr)]
      exact ⟨hr, rfl, Timing.moveOn_expected he, rfl, rfl⟩
  case ends =>
    have hentered := enterFrame_sameReference s
    refine ⟨?_, fun order => ?_, ?_⟩
    · obtain ⟨t, hexec, htiming, hports⟩ := holdoverExpiry_acts hr hc ha
      exact ⟨t, hexec, htiming ▸ goneFree_goFree _, htiming ▸ enterFrame_frame s, hports⟩
    · obtain ⟨t, hexec, htiming⟩ := frameStart_holdover order ha
      rw [Timing.holdoverFrame_ends (hentered.refState.trans hr) (hentered.holdover.trans hc)] at htiming
      exact ⟨t, hexec, htiming ▸ goneFree_goFree _⟩
    · rw [partNotices_reference, if_pos ⟨Timing.holdoverEnds_iff.2 ⟨hr, hc.ge⟩, isAhead_eq_false ha⟩]
  case counts =>
    have hentered := enterFrame_sameReference s
    obtain ⟨t, hexec, htiming⟩ := frameStart_holdover order ha
    rw [Timing.holdoverFrame_counts (hentered.refState.trans hr) (hentered.holdover.trans_lt hc)] at htiming
    refine ⟨t, hexec, ?_, ?_, ?_⟩
    · rw [htiming]; exact hentered.refState.trans hr
    · rw [htiming]; exact congrArg (· + 1) hentered.holdover
    · rw [partNotices_reference, if_neg fun h => absurd (Timing.holdoverEnds_iff.1 h.1).2 (Nat.not_le.2 hc)]

end Sys2Proof.Machine
end

section
/-! The nudge and the offset change at a frame start (O9). -/

namespace Sys2Proof.Machine

/-! ### The generator's own step (R15, R17) -/

section Step

variable {t : Timing} {n : PendingNudge}

/-- R15's instants of a pending nudge, where it moves no frame start. -/
theorem PendingNudge.qualifies_eq_false {scheduled scheduledAt : Nat}
    (h : n.behindOffset = true ∨ scheduled ≤ n.takenAt + 16 ∨ (∃ e, n.offsetAt = some e ∧ scheduled ≤ e + 16) ∨
      scheduled ≤ scheduledAt + 16) : n.qualifies scheduled scheduledAt = false := by
  rw [Bool.eq_false_iff, ne_eq, PendingNudge.qualifies_iff]
  rintro ⟨hbehind, htaken, hoffset, hscheduled⟩
  rcases h with h | h | ⟨e, he, h⟩ | h
  · simp [h] at hbehind
  · omega
  · have := hoffset e he
    omega
  · omega

/-- The one pending nudge waits, so none qualifies. -/
theorem Timing.noneQualifies (hn : t.nudge = some n) (hq : n.qualifies t.scheduled t.scheduledAt = false) :
    ∀ m, t.nudge = some m → m.qualifies t.scheduled t.scheduledAt = false := by
  intro m hm
  obtain rfl : n = m := Option.some.inj (hn.symm.trans hm)
  exact hq

theorem Timing.frameInstant_moved (hn : t.nudge = some n) (hq : n.qualifies t.scheduled t.scheduledAt = true) :
    t.frameInstant = ((t.scheduled : Int) + n.amount).toNat := by
  simp [Timing.frameInstant, Timing.nudgeNow, hn, hq]

theorem Timing.frameInstant_unmoved (h : ∀ n, t.nudge = some n → n.qualifies t.scheduled t.scheduledAt = false) :
    t.frameInstant = t.scheduled := by
  cases hn : t.nudge with
  | none => simp [Timing.frameInstant, Timing.nudgeNow, hn]
  | some n => simp [Timing.frameInstant, Timing.nudgeNow, hn, h n hn]

theorem Timing.applyNudge_moved (hn : t.nudge = some n) (hq : n.qualifies t.scheduled t.scheduledAt = true) :
    t.applyNudge.nudge = none ∧ t.applyNudge.offset = (((t.offset : Int) + n.amount) % (t.total : Int)).toNat := by
  simp [Timing.applyNudge, hn, hq]

theorem Timing.applyNudge_unmoved (h : ∀ n, t.nudge = some n → n.qualifies t.scheduled t.scheduledAt = false) :
    t.applyNudge = t := by
  cases hn : t.nudge with
  | none => simp [Timing.applyNudge, hn]
  | some n => simp [Timing.applyNudge, hn, h n hn]

theorem Timing.beginFrame_noOffset (hp : t.pendingOffset = none) :
    t.beginFrame.offset = t.offset ∧ t.beginFrame.nudge = t.nudge := by
  simp [Timing.beginFrame, Timing.applyOffset, hp]

theorem Timing.beginFrame_offset {v : Nat} (hp : t.pendingOffset = some v) :
    t.beginFrame.offset = v ∧ t.beginFrame.pendingOffset = none ∧
      t.beginFrame.scheduled = t.scheduled + offsetFrameLength t.total t.offset v ∧
      t.beginFrame.nudge = t.nudge.map (fun n =>
        if n.behindOffset then { n with behindOffset := false, offsetAt := some t.scheduled } else n) := by
  simp [Timing.beginFrame, Timing.applyOffset, Timing.nextLength, hp]

theorem Timing.beginFrame_noNudge (hn : t.nudge = none) : t.beginFrame.nudge = none := by
  unfold Timing.beginFrame Timing.applyOffset
  split <;> simp [hn]

/-- The nudge that moves the frame start is applied with the offset (R15). -/
theorem Timing.frameStart_moved (hn : t.nudge = some n) (hq : n.qualifies t.scheduled t.scheduledAt = true) :
    t.frameStart.nudge = none ∧
      (t.pendingOffset = none → t.frameStart.offset = (((t.offset : Int) + n.amount) % (t.total : Int)).toNat) := by
  obtain ⟨hnudge, hoffset⟩ := Timing.applyNudge_moved hn hq
  refine ⟨Timing.beginFrame_noNudge hnudge, fun hp => ?_⟩
  obtain ⟨hkept, -⟩ := Timing.beginFrame_noOffset (t.applyNudge_pendingOffset.trans hp)
  exact hkept.trans hoffset

/-- A nudge that waits stays pending, and is marked with the frame start at which the offset before it took effect (R15). -/
theorem Timing.frameStart_waits (hn : t.nudge = some n) (hq : n.qualifies t.scheduled t.scheduledAt = false) :
    t.frameStart.nudge ≠ none ∧ (t.pendingOffset = none ∨ n.behindOffset = false → t.frameStart.nudge = some n) ∧
      (t.pendingOffset = none → t.frameStart.offset = t.offset) := by
  unfold Timing.frameStart
  rw [Timing.applyNudge_unmoved (Timing.noneQualifies hn hq)]
  cases hp : t.pendingOffset with
  | none =>
    obtain ⟨hoffset, hnudge⟩ := Timing.beginFrame_noOffset hp
    exact ⟨by simp [hnudge, hn], fun _ => hnudge.trans hn, fun _ => hoffset⟩
  | some v =>
    obtain ⟨-, -, -, hnudge⟩ := Timing.beginFrame_offset hp
    rw [hnudge, hn]
    refine ⟨by simp, fun h => ?_, fun h => nomatch h⟩
    simp [h.resolve_left (by simp)]

/-- A pending offset takes effect where every nudge was taken behind it (R15, R17). -/
theorem Timing.frameStart_offset {v : Nat} (hp : t.pendingOffset = some v)
    (hb : ∀ n, t.nudge = some n → n.behindOffset = true) :
    t.frameStart.offset = v ∧ t.frameStart.pendingOffset = none ∧
      t.frameStart.scheduled = t.scheduled + offsetFrameLength t.total t.offset v ∧
      t.frameStart.nudge =
        t.nudge.map (fun n => { n with behindOffset := false, offsetAt := some t.scheduled }) := by
  have hwaits : ∀ n, t.nudge = some n → n.qualifies t.scheduled t.scheduledAt = false := fun n hn =>
    PendingNudge.qualifies_eq_false (Or.inl (hb n hn))
  unfold Timing.frameStart
  rw [Timing.applyNudge_unmoved hwaits]
  obtain ⟨hoffset, hpending, hscheduled, hnudge⟩ := Timing.beginFrame_offset hp
  refine ⟨hoffset, hpending, hscheduled, hnudge.trans ?_⟩
  cases hn : t.nudge with
  | none => rfl
  | some n => simp [hb n hn]

end Step

/-! ### The rows that enter a frame start (log 6) -/

/-- FRAME_START leaves the schedule of the generator's own step, whatever else it handles (R5). -/
theorem frameStart_sameSchedule (order : List FramePart) {s : State} (hg : FramePart.generator ∉ s.ahead) :
    ∃ t, exec (.frameStart order) s = .next t ∧ t.timing = s.enterFrame.framed.timing ∧
      s.timing.frameStart.SameSchedule t.timing := by
  obtain ⟨t, ht, htiming, -⟩ := frameStart_timing order s
  refine ⟨t, ht, htiming, ?_⟩
  rw [htiming]
  exact (enterFrame_sameSchedule s hg).trans (framed_sameSchedule _)

/-- A row that enters the frame start now due, and FRAME_START: both leave the schedule of the generator's own step, and the row, or
either outside HOLDOVER, the items of the reference (R5, R12). -/
theorem entering_spec {c row : Instr} {s : State} (hg : FramePart.generator ∉ s.ahead)
    (hrow : exec row s = .next s.enterFrame) (hc : c = row ∨ ∃ order, c = .frameStart order) :
    ∃ t, exec c s = .next t ∧ s.timing.frameStart.SameSchedule t.timing ∧
      (c = row ∨ s.timing.refState ≠ .holdover → s.timing.SameReference t.timing) := by
  have hreference := enterFrame_sameReference s
  by_cases h : c = row
  · subst h
    exact ⟨_, hrow, enterFrame_sameSchedule s hg, fun _ => hreference⟩
  · obtain ⟨order, rfl⟩ := hc.resolve_left h
    obtain ⟨t, ht, htiming, hschedule⟩ := frameStart_sameSchedule order hg
    refine ⟨t, ht, hschedule, fun hr => ?_⟩
    have hout : s.enterFrame.timing.refState ≠ .holdover := by
      rw [hreference.refState]
      exact hr.resolve_left h
    rw [htiming, framed_timing, holdoverFrame_timing, Timing.holdoverFrame_other hout, ite_self]
    exact hreference

theorem nudgeApply_moved {s : State} {n : PendingNudge} (hn : s.timing.nudge = some n)
    (hq : n.qualifies s.timing.scheduled s.timing.scheduledAt = true) : exec .nudgeApply s = .next s.enterFrame := by
  simp [exec, execNudgeApply, hn, hq]

theorem nudgeApply_waits {s : State} {n : PendingNudge} (hn : s.timing.nudge = some n)
    (hq : n.qualifies s.timing.scheduled s.timing.scheduledAt = false) : exec .nudgeApply s = .next s := by
  simp [exec, execNudgeApply, hn, hq]

theorem offsetTakesEffect_enters {s : State} {v : Nat} (hp : s.timing.pendingOffset = some v) :
    exec .offsetTakesEffect s = .next s.enterFrame := by
  simp [exec, execOffsetTakesEffect, hp]

/-- Settles O9: a nudge that moves the frame start, one that waits, and a pending offset, each by the generator's own step. -/
theorem nudgeAndOffsetMoveTheFrameStart : Obligations.NudgeAndOffsetMoveTheFrameStart := by
  refine ⟨fun s n c hn hbehind htaken hoffset hscheduled hg hc => ?moves, fun s n hn hg hwhy => ?waits,
    fun s v c hp hg hb hc => ?offset⟩
  case moves =>
    have hq : n.qualifies s.timing.scheduled s.timing.scheduledAt = true :=
      (n.qualifies_iff _ _).2 ⟨hbehind, htaken, hoffset, hscheduled⟩
    obtain ⟨t, hexec, hschedule, hreference⟩ := entering_spec hg (nudgeApply_moved hn hq) hc
    obtain ⟨hnudge, hturned⟩ := Timing.frameStart_moved hn hq
    refine ⟨Timing.frameInstant_moved hn hq, t, hexec, ?_, hschedule.nudge.trans hnudge, ?_, fun hp => ⟨?_, ?_⟩, fun h => ?_⟩
    · rw [hschedule.began, Timing.frameStart_began]
    · rw [hschedule.frame, Timing.frameStart_frame]
    · rw [hschedule.offset, hturned hp]
    · rw [hschedule.scheduled, Timing.frameStart_total hp]
    · obtain ⟨hr, he, -, hi, hm, -⟩ := hreference h
      exact ⟨he, hr, hi, hm⟩
  case waits =>
    have hq := PendingNudge.qualifies_eq_false hwhy
    have hinstant : s.timing.frameInstant = s.timing.scheduled :=
      Timing.frameInstant_unmoved (Timing.noneQualifies hn hq)
    refine ⟨hinstant, nudgeApply_waits hn hq, fun order => ?_⟩
    obtain ⟨t, hexec, -, hschedule⟩ := frameStart_sameSchedule order hg
    obtain ⟨hpending, hsame, hoffset⟩ := Timing.frameStart_waits hn hq
    refine ⟨t, hexec, ?_, ?_, hschedule.nudge.trans_ne hpending, fun h => hschedule.nudge.trans (hsame h),
      fun hp => ⟨?_, ?_⟩⟩
    · rw [hschedule.began, Timing.frameStart_began, hinstant]
    · rw [hschedule.frame, Timing.frameStart_frame]
    · rw [hschedule.offset, hoffset hp]
    · rw [hschedule.scheduled, Timing.frameStart_total hp, hinstant]
  case offset =>
    have hinstant : s.timing.frameInstant = s.timing.scheduled :=
      Timing.frameInstant_unmoved fun n hn => PendingNudge.qualifies_eq_false (Or.inl (hb n hn))
    obtain ⟨t, hexec, hschedule, -⟩ := entering_spec hg (offsetTakesEffect_enters hp) hc
    obtain ⟨hoffset, hpending, hscheduled, hnudge⟩ := Timing.frameStart_offset hp hb
    have hbegan : t.timing.began = s.timing.scheduled := by rw [hschedule.began, Timing.frameStart_began, hinstant]
    refine ⟨t, hexec, hschedule.offset.trans hoffset, hschedule.pendingOffset.trans hpending, ?_, hbegan, ?_,
      hschedule.nudge.trans hnudge⟩
    · rw [hschedule.frame, Timing.frameStart_frame]
    · rw [hschedule.scheduled, hscheduled, hbegan]
      rfl

end Sys2Proof.Machine
end

section
/-! The key output, the fill and key pins, and the clearing of the key enable (O18). -/

namespace Sys2Proof.Machine

/-! ### The key output (R19, R29) -/

section Key

variable {o : OutputStage}

theorem keyOutput_off {front : Bool} (key : Nat) (h : front = false ∨ o.keyEnable = false ∨ o.state = .dark) :
    keyOutput o front key = 0 := by
  unfold keyOutput
  rcases h with h | h | h <;> simp [h]

theorem keyOutput_on (key : Nat) (hk : o.keyEnable = true) (hs : o.state ≠ .dark) :
    keyOutput o true key = (key * (o.acc / 256) + 127) / 255 := by
  simp [keyOutput, OutputStage.level, hk, hs]

/-- A key scaled by a level of at most 255 is no greater than the key (R29). -/
theorem scaledKey_le (key : Nat) {level : Nat} (h : level ≤ 255) : (key * level + 127) / 255 ≤ key := by
  have := Nat.mul_le_mul_left key h
  omega

theorem keyOutput_le (key : Nat) (h : o.legal) : keyOutput o true key ≤ key := by
  by_cases hoff : o.keyEnable = false ∨ o.state = .dark
  · rw [keyOutput_off key (Or.inr hoff)]
    exact Nat.zero_le _
  · obtain ⟨hk, hs⟩ := not_or.1 hoff
    rw [keyOutput_on key (by simpa using hk) hs]
    obtain ⟨htop, -⟩ := h
    exact scaledKey_le key (by rw [accTop] at htop; omega)

/-- On air the level is 255, which leaves the key as it is (R19, R29). -/
theorem keyOutput_onAir (key : Nat) (h : o.legal) (hs : o.state = .onAir) (hk : o.keyEnable = true) :
    keyOutput o true key = key := by
  obtain ⟨-, -, hair, -⟩ := h
  rw [keyOutput_on key hk (by rw [hs]; exact fun h => nomatch h), hair hs, accTop]
  omega

end Key

/-! ### The fill and key pins (R4, R29) -/

section Pins

variable {s : State}

theorem paletteEntry_fin (v : Vector Colour 32) (i : Fin 32) : paletteEntry v i.val = v[i] := by
  simp [paletteEntry]

theorem Timing.screenPixel_blanking {t : Timing}
    (h : ¬(41 ≤ t.lineNumber ∧ t.lineNumber ≤ 1120 ∧ t.pixelInLine < 1920)) : t.screenPixel = none := if_neg h

theorem Timing.screenPixel_active {t : Timing} (h1 : 41 ≤ t.lineNumber) (h2 : t.lineNumber ≤ 1120)
    (h3 : t.pixelInLine < 1920) : t.screenPixel = some (t.pixelInLine, t.lineNumber - 41) := if_pos ⟨h1, h2, h3⟩

theorem video_blanking (h : s.timing.screenPixel = none) : s.video = ⟨16, 128, 128, 0⟩ := by
  unfold State.video
  rw [h]
  rfl

/-- At an active pixel the pins carry the colour of the front buffer's index there, or entry 0 with no front buffer (R29). -/
theorem video_active {x y : Nat} {i : Fin 32} (hp : s.timing.screenPixel = some (x, y))
    (hnone : s.render.front = none → i = 0) (hsome : ∀ b, s.render.front = some b → b.index x y = i.val) :
    s.video = ⟨s.output.palette[i].y, s.output.palette[i].cb, s.output.palette[i].cr,
      keyOutput s.output s.render.front.isSome s.output.palette[i].key⟩ := by
  unfold State.video
  rw [hp, ← paletteEntry_fin]
  cases hf : s.render.front with
  | none => rw [hnone hf]; rfl
  | some b => rw [← hsome b hf]

end Pins

/-! ### The page of the front buffer's tag ceases to be keyed (R28) -/

/-- From `s` to `t` the front buffer's page has ceased to be LOADED or OUTGOING, and the key enable waits for the next line start, if
it was set (R28, log 26). -/
def KeyDrops (s t : State) : Prop :=
  s.timing.began ≤ s.timing.now → s.output.keyDropAt = none → s.frontKeyed = true →
    t.frontKeyed = false → t.output.keyEnable = s.output.keyEnable ∧ (s.output.keyEnable = true →
      ∃ d, t.output.keyDropAt = some d ∧ t.timing.now < d ∧ d ≤ t.timing.now + s.timing.rate.width ∧
        (d - t.timing.began) % s.timing.rate.width = 0)

section Drops

variable {s t u : State}

/-- The front buffer and the page table alone say whether the frame in front is keyed. -/
theorem frontKeyed_congr (hr : t.render.frontTag = s.render.frontTag) (hp : t.pages = s.pages) :
    t.frontKeyed = s.frontKeyed := by
  unfold State.frontKeyed
  rw [hr, hp]

/-- A change that leaves the front buffer's page keyed drops nothing. -/
theorem KeyDrops.of_same (hr : t.render = s.render) (hp : t.pages = s.pages) : KeyDrops s t := by
  intro _ _ hkeyed hnot
  rw [frontKeyed_congr (by rw [hr]) hp, hkeyed] at hnot
  exact nomatch hnot

/-- What an operation that makes a page cease to be keyed finds, where no clearing of the key enable waits: the key enable as it was,
and the present instant within the raster in progress (R4, R28). -/
def DropReady (s u : State) : Prop :=
  s.timing.began ≤ s.timing.now → s.output.keyDropAt = none →
    u.output.keyEnable = s.output.keyEnable ∧ u.output.keyDropAt = none ∧ u.timing.began ≤ u.timing.now ∧
      u.timing.rate = s.timing.rate

/-- The drop of the key enable at the end of an operation, before notices and replies (R28). -/
theorem KeyDrops.of_dropKey (hu : DropReady s u) (ho : t.output = u.dropKey.output) (ht : t.timing = u.timing)
    (hk : t.frontKeyed = u.frontKeyed) : KeyDrops s t := by
  intro hraster hnone _ hnot
  obtain ⟨henable, hwait, hpos, hrate⟩ := hu hraster hnone
  rw [hk] at hnot
  rw [ho, ht, State.dropKey_output, ← henable, ← hrate]
  by_cases he : u.output.keyEnable = true
  · rw [if_pos ⟨he, hnot, hwait⟩]
    exact ⟨rfl, fun _ => ⟨_, rfl, Timing.lineAfter_bounds hpos⟩⟩
  · rw [if_neg fun h => he h.1]
    exact ⟨rfl, fun h => absurd h he⟩

theorem dropKey_frontKeyed (s : State) : s.dropKey.frontKeyed = s.frontKeyed :=
  frontKeyed_congr (by rw [(frame_dropKey s).render_eq (by simp)]) ((frame_dropKey s).pages_eq (by simp))

/-- The clock alone: what waits for no line start stands. -/
theorem DropReady.of_clock (ho : s.output.keyDropAt = none → u.output = s.output)
    (ht : u.timing = { s.timing with now := u.timing.now }) (hn : s.timing.now ≤ u.timing.now) : DropReady s u := by
  intro hraster hnone
  have hbegan : u.timing.began = s.timing.began := by rw [ht]
  have hrate : u.timing.rate = s.timing.rate := by rw [ht]
  rw [ho hnone]
  exact ⟨rfl, hnone, by omega, hrate⟩

theorem advanceTo_output_standing (time : Nat) (h : s.output.keyDropAt = none) : (s.advanceTo time).output = s.output := by
  rw [State.advanceTo_output_eq, h]

theorem taken_output_standing (k : Kind) (p : Packet) (h : s.output.keyDropAt = none) :
    (s.taken k p).output = s.output := by
  unfold State.taken State.arrive
  rw [State.mapPort_output, State.mapPort_output, advanceTo_output_standing _ h]

theorem DropReady.taken (k : Kind) (p : Packet) : DropReady s (s.taken k p) :=
  .of_clock (taken_output_standing k p) (by rw [State.taken_timing]) (by rw [State.taken_timing]; exact Nat.le_max_left _ _)

theorem DropReady.trans {v : State} (h : DropReady s u) (g : DropReady u v) : DropReady s v := by
  intro hraster hnone
  obtain ⟨henable, hwait, hpos, hrate⟩ := h hraster hnone
  obtain ⟨henable', hwait', hpos', hrate'⟩ := g hpos hwait
  exact ⟨henable'.trans henable, hwait', hpos', hrate'.trans hrate⟩

/-- A new page table and render controller with the drop that they cause, answered (R28, R45, R48). -/
theorem keyDrops_setPages (hu : DropReady s u) (v : PageTable) (r : Render) (l : Link) (st : Status)
    (result : List Byte) : KeyDrops s ((((u.setPages v).setRender r).dropKey).finish l st result) := by
  refine .of_dropKey (u := (u.setPages v).setRender r) hu (State.finish_output _ _ _ _) ?_ ?_
  · rw [State.finish_timing, (frame_dropKey _).timing_eq (by simp) (by simp)]
  · rw [frontKeyed_congr (by rw [State.finish_render]) (State.finish_pages _ _ _ _), dropKey_frontKeyed]

end Drops

/-! ### LOAD and UNLOAD (R45, R48) -/

section Commands

variable (p : Packet) (s : State)

/-- A refusal or an answer of the taken packet alone leaves the pages. -/
theorem keyDrops_answer (k : Kind) (st : Status) (result : List Byte) :
    KeyDrops s ((s.taken k p).finish p.link st result) :=
  .of_same (by simp) (by simp)

theorem keyDrops_ownLoad : KeyDrops s (ownLoad p (s.taken .load p)) := by
  unfold ownLoad
  dsimp only
  split
  · exact keyDrops_answer p s _ _ _
  · split
    · exact keyDrops_answer p s _ _ _
    · split
      · exact keyDrops_answer p s _ _ _
      · exact keyDrops_setPages (.taken _ p) _ _ _ _ _

theorem keyDrops_ownUnload : KeyDrops s (ownUnload p (s.taken .unload p)) := by
  unfold ownUnload
  split
  · exact keyDrops_answer p s _ _ _
  · split
    · exact keyDrops_answer p s _ _ _
    · exact keyDrops_setPages (.taken _ p) _ _ _ _ _

/-- Command handling drops the key as its owner does: a packet that is not taken leaves the pages (R162). -/
theorem keyDrops_serve {k : Kind} {own : Packet → State → State} (h : KeyDrops s (own p (s.taken k p))) :
    KeyDrops s (serve k p own s) :=
  serve_cases (P := fun t => KeyDrops s t) (.of_same rfl rfl) (fun _ => .of_same (by simp) (by simp)) h

end Commands

/-! ### PANIC_ACTS (R25) -/

section Panic

variable (s : State)

theorem Timing.frameStart_rate (t : Timing) : t.frameStart.rate = t.rate := by
  unfold Timing.frameStart Timing.beginFrame Timing.applyOffset
  split <;> simp

/-- The frame start that is entered begins the raster in progress (R4, R5). -/
theorem DropReady.enterFrame : DropReady s s.enterFrame := by
  intro hraster hnone
  cases hg : s.isAhead .generator with
  | true => rw [enterFrame_entered hg]; exact ⟨rfl, hnone, hraster, rfl⟩
  | false =>
    rw [enterFrame_output hg, enterFrame_timing hg, hnone]
    exact ⟨rfl, hnone, by simp, Timing.frameStart_rate _⟩

theorem DropReady.advanceTo (time : Nat) : DropReady s (s.advanceTo time) :=
  .of_clock (advanceTo_output_standing time) (by rw [State.advanceTo_timing])
    (by rw [State.advanceTo_timing]; exact Nat.le_max_left _ _)

theorem DropReady.reachPanic : DropReady s s.reachPanic := by
  unfold State.reachPanic
  split
  · exact (DropReady.enterFrame s).trans (DropReady.advanceTo _ _)
  · exact DropReady.advanceTo s _

/-- The output has become DARK at the line start that a PANIC waited for: the OUTGOING page ends, and the frame in front may stop
being keyed (R25, R26, R28). -/
theorem keyDrops_panicActs : ∃ t, exec .panicActs s = .next t ∧ KeyDrops s t := by
  refine ⟨_, rfl, ?_⟩
  by_cases hh : s.studio.holds .panic = true
  · rw [if_pos hh]
    refine .of_dropKey (u := (((s.reachPanic.setTiming { s.reachPanic.timing with panicAt := none }).setOutput
      { s.reachPanic.output with cut := none, state := .dark, acc := 0 }).endOutgoing)) (DropReady.reachPanic s) ?_ ?_ ?_
    · rw [State.finish_output, (frame_notifyOutput _ _).output_eq (by simp) (by simp)]
      rfl
    · rw [State.finish_timing, (frame_notifyOutput _ _).timing_eq (by simp) (by simp)]
      exact (frame_dropKey _).timing_eq (by simp) (by simp)
    · rw [frontKeyed_congr (by rw [State.finish_render]) (State.finish_pages _ _ _ _),
        frontKeyed_congr (by rw [(frame_notifyOutput _ _).render_eq (by simp)]) ((frame_notifyOutput _ _).pages_eq (by simp))]
      exact dropKey_frontKeyed _
  · rw [if_neg hh]
    exact .of_same rfl rfl

end Panic

/-- LOAD, UNLOAD and PANIC_ACTS clear the key enable from the next line start where the page in front ceases to be keyed (R28). -/
theorem keyDrops_exec {c : Instr} (s : State) (hc : (∃ p, c = .load p ∨ c = .unload p) ∨ c = .panicActs) :
    ∃ t, exec c s = .next t ∧ KeyDrops s t := by
  rcases hc with ⟨p, rfl | rfl⟩ | rfl
  · exact ⟨_, rfl, keyDrops_serve p s (keyDrops_ownLoad p s)⟩
  · exact ⟨_, rfl, keyDrops_serve p s (keyDrops_ownUnload p s)⟩
  · exact keyDrops_panicActs s

/-- REFERENCE_PULSE moves the output only by the clock (R28). -/
theorem referencePulse_output (time : Nat) (s : State) :
    ∃ t, exec (.referencePulse time) s = .next t ∧ t.output = (s.advanceTo time).output :=
  ⟨_, rfl, (frame_notifyReference _ _).output_eq (by simp) (by simp)⟩

/-- Settles O18: the key output, the pins, the drop at the next line start, and the clock or a frame start that reaches it. -/
theorem keyOutputIsScaled : Obligations.KeyOutputIsScaled := by
  refine ⟨fun o key hl _ => ?key, fun s => ⟨fun h => ?blanking, fun h1 h2 h3 i hnone hsome => ?active⟩,
    fun c s hc => keyDrops_exec s hc, fun time d s hd => ?clock, fun v d s hp hg hd => ?frameStart⟩
  case key =>
    exact ⟨fun hs => keyOutput_off key (Or.inr (Or.inr hs)), fun hk => keyOutput_off key (Or.inr (Or.inl hk)),
      keyOutput_off key (Or.inl rfl), keyOutput_le key hl, fun hs hk => keyOutput_on key hk hs, keyOutput_onAir key hl⟩
  case blanking => exact video_blanking (Timing.screenPixel_blanking h)
  case active => exact video_active (Timing.screenPixel_active h1 h2 h3) hnone hsome
  case clock =>
    obtain ⟨t, hexec, hout⟩ := referencePulse_output time s
    rw [State.advanceTo_output_eq, hd] at hout
    refine ⟨t, hexec, fun hreached => ?_, fun hbefore => ?_⟩
    · rw [hout.trans (if_pos hreached)]
      exact ⟨rfl, rfl⟩
    · exact hout.trans (if_neg (Nat.not_le.2 hbefore))
  case frameStart =>
    refine ⟨_, offsetTakesEffect_enters hp, ?_⟩
    rw [enterFrame_output (isAhead_eq_false hg), hd]
    exact ⟨rfl, rfl⟩

end Sys2Proof.Machine
end

section
/-! Power-on reset: what every block then holds, and the invariants that it meets (O4, O5). -/

namespace Sys2Proof.Machine

/-! ### The reset values are legal (R32, R50, R68, R87, R92, R131) -/

theorem OutputStage.reset_legal : OutputStage.reset.legal := by decide

theorem PageTable.reset_legal (state : OutputState) : PageTable.reset.legal state :=
  ⟨fun _ h => (nomatch h), fun _ h => (nomatch h), Or.inl rfl, fun h => absurd rfl h, fun _ => rfl⟩

theorem Timeline.reset_legal : Timeline.reset.legal :=
  ⟨by decide, by decide, by decide, by decide, by decide, by decide, by decide, by decide, fun _ h => (nomatch h),
    by decide, by decide, by decide, by decide, by decide, by decide, by decide, by decide, by decide⟩

theorem Blink.reset_legal : Blink.reset.legal :=
  ⟨by decide, by decide, by decide, by decide, by decide, fun _ _ h => (nomatch h), by decide⟩

/-- A field set after reset is EMPTY, whatever its DRAM holds (R68). -/
theorem FieldSet.empty_legal (a b : Mem (List Int)) : FieldSet.legal ⟨none, Bank.cleared a, Bank.cleared b⟩ :=
  ⟨rfl, rfl, rfl, rfl⟩

theorem Render.reset_legal : Render.reset.legal := by decide

/-- The memories of the first power-up are empty, hence in canonical form (log 13, log 14). -/
theorem State.reset_canonical : State.reset.canonical := by
  refine ⟨Mem.wf_nil, Mem.wf_nil, Mem.wf_nil, fun f => ?_⟩
  have hset : State.reset.store.sets[f] = FieldSet.blank := Vector.getElem_replicate f.isLt
  rw [hset]
  exact ⟨Mem.wf_nil, Mem.wf_nil⟩

/-- Settles O4: block by block. -/
theorem resetMeetsInvariants : Obligations.ResetMeetsInvariants := by
  refine ⟨by decide, State.reset_canonical, OutputStage.reset_legal, PageTable.reset_legal _, fun t => ?timeline,
    fun b => ?blink, fun f => ?fieldSet, Render.reset_legal⟩
  case timeline =>
    have h : State.reset.timelines[t] = Timeline.reset := Vector.getElem_replicate t.isLt
    rw [h]
    exact Timeline.reset_legal
  case blink =>
    have h : State.reset.blinks[b] = Blink.reset := Vector.getElem_replicate b.isLt
    rw [h]
    exact Blink.reset_legal
  case fieldSet =>
    have h : State.reset.store.sets[f] = FieldSet.blank := Vector.getElem_replicate f.isLt
    rw [h]
    exact FieldSet.empty_legal _ _

/-! ### The chart flash (R132) -/

section Flash

variable {c : Chart} (count : Nat)

/-- A reset with no program and no erase in flight damages nothing (R132). -/
theorem Chart.afterReset_idle (hp : ∀ a d, c.op ≠ some (.program a d)) (he : ∀ k, c.op ≠ some (.erase k)) :
    c.afterReset count = c.flash := by
  have hnone : c.damaged = (0, 0) := by
    unfold Chart.damaged
    split
    · rfl
    · split
      case h_1 k h => exact absurd h (he k)
      case h_2 a d h => exact absurd h (hp a d)
      all_goals rfl
  unfold Chart.afterReset
  rw [hnone]
  rfl

/-- An address outside the sector being erased and the page being programmed is outside the damage (R132). -/
theorem Chart.outside_damaged {a : Nat} (he : ∀ k, c.op = some (.erase k) → a < k * 65536 ∨ (k + 1) * 65536 ≤ a)
    (hp : ∀ m d, c.op = some (.program m d) → a < m ∨ m + 256 ≤ a) :
    a < c.damaged.1 ∨ c.damaged.1 + c.damaged.2 ≤ a := by
  unfold Chart.damaged
  split
  · exact Or.inr (Nat.zero_le _)
  · split
    case h_1 k h => rw [← Nat.succ_mul]; exact he k h
    case h_2 m d h => exact hp m d h
    all_goals exact Or.inr (Nat.zero_le _)

/-- A byte outside the damage keeps its value (R132). -/
theorem Chart.afterReset_read (h : Mem.wf flashDefault c.flash = true) {a : Nat}
    (ha : a < c.damaged.1 ∨ c.damaged.1 + c.damaged.2 ≤ a) :
    Mem.read flashDefault (c.afterReset count) a = c.byte a :=
  flashWrite_read_other h _ _ (by rw [List.length_map, List.length_range]; exact ha)

end Flash

/-! ### The symbols and the field sets (R64, R68) -/

/-- A symbol of zero bytes has code 0 at every place (R64). -/
theorem symbolCode_zeros (n row col : Nat) : symbolCode (List.replicate n 0) row col = 0 := by
  have hbyte : (List.replicate n (0 : Byte)).getD ((row * 32 + col) / 4) 0 = 0 := by
    rw [List.getD_eq_getElem?_getD, List.getElem?_replicate]
    split <;> rfl
  unfold symbolCode
  rw [hbyte]
  simp

/-- Frame 0 lasts one raster (R5, R18). -/
theorem Timing.reset_frameInstant (r : FrameRate) :
    (Timing.reset r).frameInstant = (Timing.reset r).now + (Timing.reset r).total :=
  (Timing.frameInstant_unmoved (t := Timing.reset r) fun _ h => nomatch h).trans (Nat.zero_add _).symm

/-- Settles O5: the reset values are those written in the model, and the DRAM, the flash and the queue are carried over. -/
theorem powerOnResetSetsEveryBlock : Obligations.PowerOnResetSetsEveryBlock := by
  intro high s
  refine ⟨_, rfl, ?rate, rfl, rfl, rfl, rfl, rfl, rfl, rfl, rfl, rfl, rfl, rfl, ?instant, rfl, rfl, rfl, rfl, rfl,
    fun i => Vector.getElem_replicate i.isLt, rfl, fun p => Vector.getElem_replicate p.isLt, rfl, rfl, fun f => ?set,
    fun l => Vector.getElem_replicate l.isLt, fun y row col _ _ => ?symbol, fun n => ?timeline,
    fun b => Vector.getElem_replicate b.isLt, rfl, rfl, rfl, rfl, rfl, rfl, rfl,
    fun i => Vector.getElem_replicate i.isLt, rfl, rfl, rfl, rfl, rfl, rfl, fun hp he => Chart.afterReset_idle _ hp he,
    fun a hw he hp => Chart.afterReset_read _ hw (Chart.outside_damaged he hp), rfl, rfl, rfl, fun l => ?port, rfl, rfl,
    rfl⟩
  case rate => cases high <;> rfl
  case instant => exact Timing.reset_frameInstant _
  case set =>
    have h : (s.store.sets.map FieldSet.afterReset)[f] = s.store.sets[f].afterReset := Vector.getElem_map _ f.isLt
    refine ⟨?_, ?_, ?_, ?_⟩
    all_goals rw [h]
    · rfl
    · exact FieldSet.empty_legal _ _
    · rfl
    · rfl
  case symbol =>
    have h : FieldStore.reset.symbols[y] = List.replicate 256 0 := Vector.getElem_replicate y.isLt
    rw [h]
    exact symbolCode_zeros 256 row col
  case timeline =>
    have h : State.reset.timelines[n] = Timeline.reset := Vector.getElem_replicate n.isLt
    rw [h]
    exact ⟨rfl, rfl, rfl, rfl, rfl, rfl, rfl, rfl, rfl, rfl, rfl, rfl, rfl⟩
  case port => cases l <;> exact ⟨rfl, rfl, rfl, rfl, rfl, rfl, rfl⟩

end Sys2Proof.Machine
end

section
/-! The slope of a duration, the fade's step, and the full fade (O12). -/

namespace Sys2Proof.Machine

/-! ### The slope of a duration (R20) -/

section Slope

variable {d : Nat}

theorem slopeOf_eq (d : Nat) : slopeOf d = (65280 + d - 1) / d := rfl

/-- A duration of up to 250 frames has a slope within the range of Table 2-1. -/
theorem slopeOf_bounds (h1 : 1 ≤ d) (h2 : d ≤ maxDuration) : 262 ≤ slopeOf d ∧ slopeOf d ≤ accTop := by
  rw [maxDuration] at h2
  rw [slopeOf_eq, accTop, Nat.le_div_iff_mul_le h1, Nat.div_le_iff_le_mul_add_pred h1]
  omega

/-- The slope is rounded up, so `d` steps of it cover the accumulator's range. -/
theorem accTop_le_mul_slopeOf (h : 1 ≤ d) : accTop ≤ d * slopeOf d := by
  have hmod := Nat.mod_lt (65280 + d - 1) h
  have hdiv := Nat.div_add_mod (65280 + d - 1) d
  rw [slopeOf_eq, accTop]
  omega

/-- What the rounding adds over fewer than 250 steps is less than one slope, so fewer than `d` steps do not cover the range. -/
theorem mul_slopeOf_lt_accTop {n : Nat} (hn : n < d) (h : d ≤ maxDuration) : n * slopeOf d < accTop := by
  rw [maxDuration] at h
  have hslope : d * slopeOf d ≤ 65280 + (d - 1) := by
    rw [slopeOf_eq, Nat.add_sub_assoc (by omega)]
    exact Nat.mul_div_le _ _
  have hsteps : n * slopeOf d ≤ (d - 1) * slopeOf d := Nat.mul_le_mul_right _ (by omega)
  have hsplit : (d - 1) * slopeOf d + slopeOf d = d * slopeOf d := by
    rw [← Nat.succ_mul, Nat.succ_eq_add_one, Nat.sub_add_cancel (by omega)]
  have hmin := (slopeOf_bounds (by omega) h).1
  rw [accTop]
  omega

end Slope

/-! ### The fade's step (R21) -/

section Fade

variable {o : OutputStage}

theorem OutputStage.fadeStep_fadeIn (h : o.state = .fadeIn) :
    o.fadeStep = { o with
      acc := min (o.acc + o.slope) accTop
      state := if accTop ≤ o.acc + o.slope then .onAir else .fadeIn } := by
  simp only [OutputStage.fadeStep, h, min_eq_right_iff]

theorem OutputStage.fadeStep_fadeOut (h : o.state = .fadeOut) :
    o.fadeStep = { o with
      acc := o.acc - o.slope
      state := if o.acc ≤ o.slope then .dark else .fadeOut } := by
  simp only [OutputStage.fadeStep, h, Nat.sub_eq_zero_iff_le]

theorem OutputStage.fadeStep_still (h : o.state = .dark ∨ o.state = .onAir) : o.fadeStep = o := by
  rcases h with h | h <;> simp only [OutputStage.fadeStep, h]

/-- Before it reaches the top a fade in has added one slope at each frame start. -/
theorem OutputStage.fadeStep_iterate_fadeIn (hs : o.state = .fadeIn) (ha : o.acc = 0) {n : Nat}
    (hn : n * o.slope < accTop) :
    (OutputStage.fadeStep^[n] o).state = .fadeIn ∧ (OutputStage.fadeStep^[n] o).acc = n * o.slope ∧
      (OutputStage.fadeStep^[n] o).slope = o.slope := by
  induction n with
  | zero => exact ⟨hs, ha.trans (Nat.zero_mul _).symm, rfl⟩
  | succ n ih =>
    rw [Nat.succ_mul] at hn ⊢
    obtain ⟨hstate, hacc, hslope⟩ := ih (by omega)
    rw [Function.iterate_succ_apply', OutputStage.fadeStep_fadeIn hstate, hacc, hslope]
    exact ⟨if_neg (Nat.not_le.2 hn), min_eq_left hn.le, rfl⟩

/-- Before it reaches 0 a fade out has taken off one slope at each frame start. -/
theorem OutputStage.fadeStep_iterate_fadeOut (hs : o.state = .fadeOut) (ha : o.acc = accTop) {n : Nat}
    (hn : n * o.slope < accTop) :
    (OutputStage.fadeStep^[n] o).state = .fadeOut ∧ (OutputStage.fadeStep^[n] o).acc = accTop - n * o.slope ∧
      (OutputStage.fadeStep^[n] o).slope = o.slope := by
  induction n with
  | zero => exact ⟨hs, by rw [Nat.zero_mul]; exact ha, rfl⟩
  | succ n ih =>
    rw [Nat.succ_mul] at hn ⊢
    obtain ⟨hstate, hacc, hslope⟩ := ih (by omega)
    rw [Function.iterate_succ_apply', OutputStage.fadeStep_fadeOut hstate, hacc, hslope]
    exact ⟨if_neg (by omega), Nat.sub_sub _ _ _, rfl⟩

end Fade

/-- Settles O12: fewer than `d` slopes do not cover the accumulator's range, and `d` of them do. -/
theorem fadeTakesItsDuration : Obligations.FadeTakesItsDuration := by
  intro d o h1 h2 hslope
  obtain ⟨m, rfl⟩ : ∃ m, d = m + 1 := ⟨d - 1, by omega⟩
  have hbelow : ∀ n, n < m + 1 → n * o.slope < accTop := fun n hn => hslope ▸ mul_slopeOf_lt_accTop hn h2
  have hlast : accTop ≤ m * o.slope + o.slope := by
    rw [← Nat.succ_mul, hslope]
    exact accTop_le_mul_slopeOf h1
  refine ⟨fun hs ha => ?fadeIn, fun hs ha => ?fadeOut⟩
  case fadeIn =>
    obtain ⟨hstate, hacc, hstep⟩ := OutputStage.fadeStep_iterate_fadeIn hs ha (hbelow m (Nat.lt_succ_self m))
    rw [Function.iterate_succ_apply', OutputStage.fadeStep_fadeIn hstate, hacc, hstep]
    refine ⟨min_eq_right hlast, if_pos hlast, fun n hn => ?_⟩
    obtain ⟨hstate, hacc, -⟩ := OutputStage.fadeStep_iterate_fadeIn hs ha (hbelow n hn)
    exact ⟨hstate, hacc.trans_lt (hbelow n hn)⟩
  case fadeOut =>
    obtain ⟨hstate, hacc, hstep⟩ := OutputStage.fadeStep_iterate_fadeOut hs ha (hbelow m (Nat.lt_succ_self m))
    rw [Function.iterate_succ_apply', OutputStage.fadeStep_fadeOut hstate, hacc, hstep]
    have hrest : accTop - m * o.slope ≤ o.slope := Nat.sub_le_iff_le_add'.2 hlast
    refine ⟨Nat.sub_eq_zero_of_le hrest, if_pos hrest, fun n hn => ?_⟩
    obtain ⟨hstate, hacc, -⟩ := OutputStage.fadeStep_iterate_fadeOut hs ha (hbelow n hn)
    exact ⟨hstate, hacc ▸ Nat.sub_pos_of_lt (hbelow n hn)⟩

end Sys2Proof.Machine
end

section
/-! TAKE and CLEAR (O11). -/

namespace Sys2Proof.Machine

/-! ### TAKE and CLEAR on the output stage (R23, R24, Table 2-3) -/

section Table

variable (o : OutputStage) (d : Nat)

/-- TAKE of a fade starts it where the output is not ON_AIR; TAKE of a cut waits for a frame start there (R23). -/
theorem OutputStage.take_eq :
    o.take d = { o with
      state := if 1 ≤ d ∧ o.state ≠ .onAir then .fadeIn else o.state
      slope := if 1 ≤ d then slopeOf d else o.slope
      cut := if d = 0 ∧ o.state ≠ .onAir then some .toOnAir else none } := by
  unfold OutputStage.take
  split
  case h_1 hair => cases d <;> simp [hair]
  case h_2 hair =>
    have hnot : o.state ≠ .onAir := hair
    cases d <;> simp [hnot]

/-- CLEAR of a fade starts it where the output is not DARK; CLEAR of a cut waits for a frame start there (R24). -/
theorem OutputStage.clear_eq :
    o.clear d = { o with
      state := if 1 ≤ d ∧ o.state ≠ .dark then .fadeOut else o.state
      slope := if 1 ≤ d ∧ o.state ≠ .dark then slopeOf d else o.slope
      cut := if d = 0 ∧ o.state ≠ .dark then some .toDark else none } := by
  unfold OutputStage.clear
  split
  case h_1 hdark => simp [hdark]
  case h_2 hdark =>
    have hnot : o.state ≠ .dark := hdark
    cases d <;> simp [hnot]

end Table

/-! ### The owners' cases (R23, R24, R27) -/

/-- The duration that a TAKE or a CLEAR carries, clamped (R20). -/
def fadeDuration (p : Packet) : Nat := min (fieldNat p.payload 0 2) maxDuration

section Owner

variable (p : Packet) {s : State}

theorem ownTake_noPage (h : s.pages.loaded = none) : ownTake p s = s.finish p.link .noPage [] := by
  simp only [ownTake, h]

theorem ownTake_accepted (h : s.pages.loaded ≠ none) :
    ownTake p s =
      ((s.setOutput (s.output.take (fadeDuration p))).notifyOutput s.output.state).finish p.link
        (okOr (fadeDuration p != fieldNat p.payload 0 2)) (bytes2 (fadeDuration p)) := by
  obtain ⟨n, hn⟩ := Option.ne_none_iff_exists'.1 h
  simp only [ownTake, hn, fadeDuration]

theorem ownClear_eq (s : State) :
    ownClear p s =
      ((s.setOutput (s.output.clear (fadeDuration p))).notifyOutput s.output.state).finish p.link
        (okOr (fadeDuration p != fieldNat p.payload 0 2)) (bytes2 (fadeDuration p)) := rfl

end Owner

@[simp] theorem State.notifyOutput_output (s : State) (before : OutputState) : (s.notifyOutput before).output = s.output :=
  (frame_notifyOutput s before).output_eq (by simp) (by simp)

/-- Settles O11: TAKE by its owner's two cases, CLEAR by its one, each on the output stage by Table 2-3. -/
theorem takeAndClearFollowTable : Obligations.TakeAndClearFollowTable := by
  refine ⟨fun p s ht hl => ?refused, fun p s ht hl => ?take, fun p s ht => ?clear⟩
  case refused => rw [exec_of_takes (own := ownTake) rfl ht, ownTake_noPage p (by rwa [State.taken_pages])]
  case take =>
    have hown := ownTake_accepted p (s := s.taken .take p) (by rwa [State.taken_pages])
    rw [okOr_bne, State.taken_output_state] at hown
    refine ⟨_, (exec_of_takes (own := ownTake) rfl ht).trans (congrArg _ hown), ?_⟩
    rw [State.finish_output, State.notifyOutput_output, State.setOutput_output, OutputStage.take_eq,
      State.taken_output_state, State.taken_output_acc, State.taken_output_slope]
    exact ⟨rfl, rfl, rfl, rfl, rfl⟩
  case clear =>
    have hown := ownClear_eq p (s.taken .clear p)
    rw [okOr_bne, State.taken_output_state] at hown
    refine ⟨_, (exec_of_takes (own := ownClear) rfl ht).trans (congrArg _ hown), ?_⟩
    rw [State.finish_output, State.notifyOutput_output, State.setOutput_output, OutputStage.clear_eq,
      State.taken_output_state, State.taken_output_acc, State.taken_output_slope]
    exact ⟨rfl, rfl, rfl, rfl, rfl⟩

end Sys2Proof.Machine
end

section
/-! The output stage at a frame start, with FRAME_START and ahead of it (O13, O14). -/

namespace Sys2Proof.Machine

/-! ### The fade or the pending cut (R21, R22) -/

section Stage

variable {o : OutputStage}

theorem OutputStage.frame_noCut (h : o.cut = none) (loaded : Bool) : o.frame loaded = o.fadeStep := by
  simp only [OutputStage.frame, h]

theorem OutputStage.frame_toOnAir (h : o.cut = some .toOnAir) :
    o.frame true = { o with cut := none, acc := accTop, state := .onAir } := by
  simp only [OutputStage.frame, OutputStage.applyCut, h, if_true]

/-- A cut to ON_AIR is dropped where no page is LOADED (R22). -/
theorem OutputStage.frame_toOnAir_dropped (h : o.cut = some .toOnAir) : o.frame false = { o with cut := none } := by
  simp only [OutputStage.frame, OutputStage.applyCut, h, Bool.false_eq_true, if_false]

theorem OutputStage.frame_toDark (h : o.cut = some .toDark) (loaded : Bool) :
    o.frame loaded = { o with cut := none, acc := 0, state := .dark } := by
  simp only [OutputStage.frame, OutputStage.applyCut, h]

/-- The fade moves the accumulator and the output state alone (R21). -/
theorem OutputStage.fadeStep_eq (o : OutputStage) :
    o.fadeStep = { o with acc := o.fadeStep.acc, state := o.fadeStep.state } := by
  cases h : o.state with
  | dark => rw [OutputStage.fadeStep_still (Or.inl h)]
  | fadeIn => rw [OutputStage.fadeStep_fadeIn h]
  | onAir => rw [OutputStage.fadeStep_still (Or.inr h)]
  | fadeOut => rw [OutputStage.fadeStep_fadeOut h]

/-- A frame start moves the accumulator and the output state, and leaves no cut pending (R21, R22). -/
theorem OutputStage.frame_eq (o : OutputStage) (loaded : Bool) :
    o.frame loaded = { o with acc := (o.frame loaded).acc, state := (o.frame loaded).state, cut := none } := by
  cases hc : o.cut with
  | none => rw [OutputStage.frame_noCut hc, ← hc]; exact o.fadeStep_eq
  | some c =>
    cases c with
    | toDark => rw [OutputStage.frame_toDark hc]
    | toOnAir =>
      cases loaded with
      | true => rw [OutputStage.frame_toOnAir hc]
      | false => rw [OutputStage.frame_toOnAir_dropped hc]

theorem OutputStage.frame_cut (o : OutputStage) (loaded : Bool) : (o.frame loaded).cut = none := by
  rw [OutputStage.frame_eq]

theorem OutputStage.frame_slope (o : OutputStage) (loaded : Bool) : (o.frame loaded).slope = o.slope := by
  rw [OutputStage.frame_eq]

/-- The output stage with its key enable replaced, and the line start at which a clearing of it waits (R28). -/
def OutputStage.withKey (o : OutputStage) (enable : Bool) (drop : Option Nat) : OutputStage :=
  { o with keyEnable := enable, keyDropAt := drop }

/-- The fade and the cut do not read the key enable. -/
theorem OutputStage.withKey_frame (o : OutputStage) (enable : Bool) (drop : Option Nat) (loaded : Bool) :
    (o.withKey enable drop).frame loaded = (o.frame loaded).withKey enable drop := by
  obtain ⟨state, acc, slope, cut, _⟩ := o
  cases cut with
  | none => cases state <;> rfl
  | some c =>
    cases c with
    | toDark => rfl
    | toOnAir => cases loaded <;> rfl

end Stage

/-! ### A frame start entered and handled -/

section Handled

variable (s : State)

/-- A frame start that is entered moves the key enable alone among the output's items (R28). -/
theorem enterFrame_output_withKey : ∃ enable drop, s.enterFrame.output = s.output.withKey enable drop :=
  ⟨_, _, frame_enterFrame s .output (by simp)⟩

/-- The output stage after the whole frame start now due (R21, R22, R28, R30). -/
theorem enterFrame_framed_output :
    s.enterFrame.framed.output =
      { (if s.isAhead .output then s.output else s.output.frame s.pages.loaded.isSome) with
        palette := s.output.staged
        keyEnable := s.enterFrame.framed.frontKeyed
        keyDropAt := none } := by
  obtain ⟨enable, drop, hkey⟩ := enterFrame_output_withKey s
  rw [framed_output, enterFrame_isAhead s (by simp), (frame_enterFrame s).pages_eq (by simp), hkey,
    OutputStage.withKey_frame]
  split <;> rfl

/-- The output stage's own handling of the frame start now due, ahead of the rest (R21, R22, log 6). -/
theorem enterFrame_outputFrame_output :
    ∃ enable drop, s.enterFrame.outputFrame.output = (s.output.frame s.pages.loaded.isSome).withKey enable drop := by
  obtain ⟨enable, drop, hkey⟩ := enterFrame_output_withKey s
  refine ⟨s.enterFrame.outputFrame.output.keyEnable, s.enterFrame.outputFrame.output.keyDropAt,
    (outputFrame_output _).trans ?_⟩
  rw [hkey, (frame_enterFrame s).pages_eq (by simp), OutputStage.withKey_frame]
  rfl

/-- The pages after it: an OUTGOING page ends where the output becomes DARK (R26). -/
theorem enterFrame_outputFrame_pages :
    s.enterFrame.outputFrame.pages =
      if (s.output.frame s.pages.loaded.isSome).state = .dark ∧ s.output.state ≠ .dark then
        { s.pages with outgoing := none }
      else s.pages := by
  obtain ⟨enable, drop, hkey⟩ := enterFrame_output_withKey s
  rw [outputFrame_pages, hkey, (frame_enterFrame s).pages_eq (by simp), OutputStage.withKey_frame]
  rfl

/-- The frame in front is keyed where its buffer's tag names the LOADED or the OUTGOING page (R28). -/
theorem frontKeyed_iff :
    s.frontKeyed = true ↔ ∃ b p, s.render.front = some b ∧ b.tag = some p ∧
      (s.pages.loaded = some p ∨ s.pages.outgoing = some p) := by
  unfold State.frontKeyed Render.frontTag
  cases s.render.front with
  | none => simp
  | some b => cases hb : b.tag <;> simp [hb, PageTable.keyed]

end Handled

/-- Settles O13: the frame start as the output stage's step, and its notice. -/
theorem frameStartDrivesTheOutput : Obligations.FrameStartDrivesTheOutput := by
  intro order s
  obtain ⟨t, hexec, hf⟩ := frameStart_next order s
  have hframed : t.output = s.enterFrame.framed.output := hf.output_eq (by simp) (by simp)
  have hout := hframed.trans (enterFrame_framed_output s)
  have hkeyed : s.enterFrame.framed.frontKeyed = t.frontKeyed :=
    (frontKeyed_congr (by rw [hf.render_eq (by simp)]) (hf.pages_eq (by simp))).symm
  refine ⟨t, hexec, by rw [hout], ?staged, ?slope, ?key, fun ha => ?stage, ?notice⟩
  case staged => rw [hout]; split <;> simp only [OutputStage.frame_staged]
  case slope => rw [hout]; split <;> simp only [OutputStage.frame_slope]
  case key => rw [hout, hkeyed]; exact frontKeyed_iff t
  case notice => rw [hframed, partNotices_output]
  case stage =>
    rw [isAhead_eq_false ha, if_neg Bool.false_ne_true] at hout
    have hstep : t.output.acc = (s.output.frame s.pages.loaded.isSome).acc ∧
        t.output.state = (s.output.frame s.pages.loaded.isSome).state := by rw [hout]; exact ⟨rfl, rfl⟩
    have hcut : t.output.cut = (s.output.frame s.pages.loaded.isSome).cut := by rw [hout]
    refine ⟨hcut.trans (OutputStage.frame_cut _ _), fun hc hs => ?_, fun hc hs => ?_, fun hc hs => ?_,
      fun hc hl => ?_, fun hc hl => ?_, fun hc => ?_⟩
    · rwa [OutputStage.frame_noCut hc, OutputStage.fadeStep_fadeIn hs, accTop] at hstep
    · rwa [OutputStage.frame_noCut hc, OutputStage.fadeStep_fadeOut hs] at hstep
    · rwa [OutputStage.frame_noCut hc, OutputStage.fadeStep_still hs] at hstep
    · rwa [Option.isSome_iff_ne_none.2 hl, OutputStage.frame_toOnAir hc] at hstep
    · rwa [hl, Option.isSome_none, OutputStage.frame_toOnAir_dropped hc] at hstep
    · rwa [OutputStage.frame_toDark hc] at hstep

/-! ### PENDING_CUT (R22, log 6) -/

/-- A change of output state is notified on the studio link (R27). -/
theorem State.notifyOutput_studio (s : State) (before : OutputState) :
    (s.notifyOutput before).studio =
      if s.output.state = before then s.studio
      else Port.notify ((Notice.outputState s.output.state).packet s.timing.frame) s.studio := by
  unfold State.notifyOutput
  split
  · rfl
  · exact State.notify_port s .studio _

/-- PENDING_CUT of a cut not yet handled is the output stage's own handling of the frame start now due (R22, R27). -/
theorem pendingCut_acts {s : State} {c : Cut} (hc : s.output.cut = some c) (ha : FramePart.output ∉ s.ahead) :
    exec .pendingCut s = .next ((s.enterFrame.outputFrame.markAhead .output).notifyOutput s.output.state) := by
  obtain ⟨enable, drop, hkey⟩ := enterFrame_output_withKey s
  have hstate : s.enterFrame.output.state = s.output.state := by rw [hkey]; rfl
  simp only [exec, execPendingCut, hc, isAhead_eq_false ha, Bool.false_eq_true, if_false, hstate]

/-- Settles O14: the output stage's own handling of the frame start by the pending cut, and its notice. -/
theorem pendingCutActs : Obligations.PendingCutActs := by
  intro s c hc ha
  obtain ⟨enable, drop, hout⟩ := enterFrame_outputFrame_output s
  have hpages := enterFrame_outputFrame_pages s
  have hframe : s.enterFrame.outputFrame.timing.frame = s.dueFrame := by
    rw [(frame_outputFrame _).timing_eq (by simp) (by simp), enterFrame_frame]
  have hport : s.enterFrame.outputFrame.studio = s.studio := by
    have hkept : Frame [.clock, .keyEnable, .timing, .ahead, .output, .pages] s s.enterFrame.outputFrame :=
      ((frame_enterFrame s).mono (by simp)).trans ((frame_outputFrame _).mono (by simp))
    exact hkept.port_eq .studio (by simp)
  refine ⟨_, pendingCut_acts hc ha, ?_⟩
  rw [State.notifyOutput_output, State.notifyOutput_studio, (frame_notifyOutput _ _).timing_eq (by simp) (by simp),
    (frame_notifyOutput _ _).pages_eq (by simp), State.markAhead_output, State.markAhead_studio, State.markAhead_timing,
    State.markAhead_pages, hframe, hport, hout, hpages]
  refine ⟨OutputStage.frame_cut _ _, rfl, fun h hl => ?_, fun h hl => ?_, fun h => ?_, rfl⟩
  · subst h
    rw [Option.isSome_iff_ne_none.2 hl, OutputStage.frame_toOnAir hc]
    exact ⟨rfl, rfl, if_neg fun h => nomatch h.1⟩
  · subst h
    rw [hl, Option.isSome_none, OutputStage.frame_toOnAir_dropped hc]
    exact ⟨rfl, rfl, if_neg fun h => h.2 h.1⟩
  · subst h
    rw [OutputStage.frame_toDark hc]
    refine ⟨rfl, rfl, ?_, fun hs => ?_⟩
    · split <;> rfl
    · rw [if_pos ⟨rfl, hs⟩]

end Sys2Proof.Machine
end

section
/-! PANIC: its slot, a frame start while it waits, and PANIC_ACTS (O15). -/

namespace Sys2Proof.Machine

/-! ### PANIC in its slot (R25) -/

/-- While a PANIC waits it is due at the line start found for it, or at the frame start now scheduled if that comes first (R25). -/
theorem Timing.panicDue_waiting {t : Timing} {d : Nat} (h : t.panicAt = some d) : t.panicDue = min d t.frameInstant := by
  rw [Timing.panicDue, h, Option.getD_some]

/-- FRAME_START brings a waiting PANIC to the frame start that it enters, if the line start it waits for is later (R25). -/
theorem frameStart_panicAt (order : List FramePart) {s : State} (hg : FramePart.generator ∉ s.ahead) :
    ∃ t, exec (.frameStart order) s = .next t ∧
      t.timing.panicAt = s.timing.panicAt.map (min · s.timing.frameInstant) := by
  obtain ⟨t, ht, htiming, -⟩ := frameStart_timing order s
  have hframed : s.enterFrame.framed.timing.panicAt = s.enterFrame.timing.panicAt := by
    rw [framed_timing, holdoverFrame_timing]
    split
    · rfl
    · rw [Timing.holdoverFrame_eq]
  refine ⟨t, ht, ?_⟩
  rw [htiming, hframed, enterFrame_timing (isAhead_eq_false hg)]
  exact Timing.frameStart_panicAt _

/-! ### PANIC_ACTS (R25, R27) -/

section Acts

variable (s : State)

/-- Entering DARK puts the state and the accumulator there; the key enable's drop may wait after it (R26, R28). -/
theorem enterDark_output :
    ∃ enable drop, s.enterDark.output = ({ s.output with state := .dark, acc := 0 } : OutputStage).withKey enable drop :=
  ⟨_, _, frame_dropKey _ .output (by simp)⟩

/-- Entering DARK ends an OUTGOING page and leaves the rest of the page table (R26). -/
theorem enterDark_pages : s.enterDark.pages = { s.pages with outgoing := none } :=
  (frame_dropKey _).pages_eq (by simp)

/-- Reaching the line start of a PANIC moves the key enable alone among the output's items (R25, R28). -/
theorem reachPanic_output_withKey : ∃ enable drop, s.reachPanic.output = s.output.withKey enable drop :=
  ⟨_, _, frame_reachPanic s .output (by simp)⟩

theorem markAhead_isAhead (h : FramePart) : (s.markAhead h).isAhead h = true := by
  simp [State.markAhead, State.isAhead]

/-- A frame start that has been entered has the generator's mark (log 6). -/
theorem enterFrame_isAhead_generator : s.enterFrame.isAhead .generator = true := by
  cases hg : s.isAhead .generator with
  | true => rw [enterFrame_entered hg, hg]
  | false =>
    unfold State.enterFrame
    rw [hg, if_neg Bool.false_ne_true]
    exact markAhead_isAhead _ _

/-- The frame start at which a PANIC acts is entered: its number is current, and the mark stands (R27, log 6). -/
theorem reachPanic_entered (h : s.timing.panicDue = s.timing.frameInstant) :
    s.reachPanic.timing.frame = s.dueFrame ∧ FramePart.generator ∈ s.reachPanic.ahead ∧
      (FramePart.generator ∉ s.ahead → s.reachPanic.timing.began = s.timing.frameInstant) := by
  rw [reachPanic_frame h, State.advanceTo_timing, State.advanceTo_ahead]
  refine ⟨enterFrame_frame s, ?_, fun hg => ?_⟩
  · exact (isAhead_iff _ _).1 (enterFrame_isAhead_generator s)
  · rw [enterFrame_timing (isAhead_eq_false hg)]
    exact Timing.frameStart_began _

/-- The state once a waiting PANIC has acted, before its notice and its reply (R25). -/
def State.panicked : State :=
  ((s.reachPanic.setTiming { s.reachPanic.timing with panicAt := none }).setOutput
    { s.reachPanic.output with cut := none }).enterDark

theorem panicActs_acts {s : State} (h : s.studio.holds .panic = true) :
    exec .panicActs s = .next ((s.panicked.notifyOutput s.output.state).finish .studio .ok []) := by
  obtain ⟨enable, drop, hkey⟩ := reachPanic_output_withKey s
  have hstate : s.reachPanic.output.state = s.output.state := by rw [hkey]; rfl
  have hacts : exec .panicActs s =
      .next ((s.panicked.notifyOutput s.reachPanic.output.state).finish .studio .ok []) :=
    congrArg Host.Outcome.next (if_pos h)
  rw [hacts, hstate]

theorem panicked_timing : s.panicked.timing = { s.reachPanic.timing with panicAt := none } :=
  (frame_enterDark _).timing_eq (by simp) (by simp)

/-- The output stage that a PANIC leaves: DARK at 0, no cut pending, the slope as it was (R25). -/
theorem panicked_output :
    ∃ enable drop, s.panicked.output =
      ({ s.output with state := .dark, acc := 0, cut := none } : OutputStage).withKey enable drop := by
  obtain ⟨enable, drop, hreach⟩ := reachPanic_output_withKey s
  obtain ⟨enable', drop', hdark⟩ := enterDark_output
    ((s.reachPanic.setTiming { s.reachPanic.timing with panicAt := none }).setOutput
      { s.reachPanic.output with cut := none })
  refine ⟨enable', drop', hdark.trans ?_⟩
  rw [State.setOutput_output, hreach]
  rfl

theorem panicked_pages : s.panicked.pages = { s.pages with outgoing := none } := by
  rw [State.panicked, enterDark_pages, State.setOutput_pages, State.setTiming_pages,
    (frame_reachPanic s).pages_eq (by simp)]

/-- Before its notice and its reply a PANIC leaves the studio port and the marks as reaching its line start leaves them. -/
theorem frame_panicked : Frame [.clock, .keyEnable, .timing, .output, .pages] s.reachPanic s.panicked :=
  ((frame_setTiming _ _).mono (by simp)).trans
    (((frame_setOutput _ _).mono (by simp)).trans ((frame_enterDark _).mono (by simp)))

end Acts

/-- Settles O15: the slot, the frame start while the PANIC waits, and its action at the line start reached. -/
theorem panicActsAtTheLineStart : Obligations.PanicActsAtTheLineStart := by
  refine ⟨fun p s ht => ?slot, fun order s d hd hg => ?waits, fun s h => ?acts⟩
  case slot =>
    refine ⟨_, exec_of_takes (own := ownPanic) rfl ht, rfl, fun hraster => ?_, fun d hd => ?_⟩
    · have hpos : (s.taken .panic p).timing.began ≤ (s.taken .panic p).timing.now := by
        rw [State.taken_timing]
        exact hraster.trans (Nat.le_max_left _ _)
      have hbounds := Timing.lineAfter_bounds hpos
      rw [State.taken_timing] at hbounds
      rw [ownPanic, State.setTiming_timing, State.taken_timing]
      exact ⟨_, rfl, hbounds⟩
    · rw [Timing.panicDue_waiting hd, ownPanic, State.setTiming_timing, State.taken_timing]
      rfl
  case waits =>
    obtain ⟨t, hexec, hpanic⟩ := frameStart_panicAt order hg
    exact ⟨t, hexec, by rw [hpanic, hd]; rfl⟩
  case acts =>
    obtain ⟨enable, drop, hout⟩ := panicked_output s
    have htiming := panicked_timing s
    have hahead : s.panicked.ahead = s.reachPanic.ahead := (frame_panicked s).ahead_eq (by simp)
    have hport : s.panicked.studio = s.studio :=
      ((frame_panicked s).port_eq .studio (by simp)).trans ((frame_reachPanic s).port_eq .studio (by simp))
    have hstudio : ((s.panicked.notifyOutput s.output.state).finish .studio .ok []).studio =
        Port.finish .ok [] (if OutputState.dark = s.output.state then s.studio
          else Port.notify ((Notice.outputState .dark).packet s.panicked.timing.frame) s.studio) := by
      have hfinish := State.finish_port (s.panicked.notifyOutput s.output.state) .studio .ok []
      rw [State.port_studio, State.port_studio, State.notifyOutput_studio, hport, hout] at hfinish
      exact hfinish
    refine ⟨_, panicActs_acts h, ?_⟩
    rw [hstudio, State.finish_timing, State.finish_output, State.finish_pages, State.finish_ahead,
      (frame_notifyOutput _ _).timing_eq (by simp) (by simp), (frame_notifyOutput _ _).pages_eq (by simp),
      (frame_notifyOutput _ _).ahead_eq (by simp), State.notifyOutput_output, hout, htiming, hahead, panicked_pages]
    refine ⟨reachPanic_now s, rfl, fun hframe => reachPanic_entered s hframe, fun hline => ?_, rfl, rfl, rfl, rfl, rfl, rfl,
      Port.finish_slot _ _ _, ?_⟩
    · rw [reachPanic_line hline, State.advanceTo_timing, State.advanceTo_ahead]
      exact ⟨rfl, rfl⟩
    · simp only [eq_comm (a := OutputState.dark)]

end Sys2Proof.Machine
end

section
/-! PALETTE WRITE (O16). -/

namespace Sys2Proof.Machine

/-! ### The entries of the payload (R31) -/

/-- Entry `k` that a PALETTE WRITE payload carries, as received. -/
def sentColour (payload : List Byte) (k : Nat) : Colour :=
  ⟨fieldNat payload (2 + 4 * k) 1, fieldNat payload (3 + 4 * k) 1, fieldNat payload (4 + 4 * k) 1,
    fieldNat payload (5 + 4 * k) 1⟩

/-- Records of one length stand one behind the other. -/
theorem records_eq_map (n count : Nat) (bytes : List Byte) :
    records n count bytes = (List.range count).map fun k => (bytes.drop (n * k)).take n := by
  induction count generalizing bytes with
  | zero => rfl
  | succ count ih =>
    rw [records, ih, List.range_succ_eq_map, List.map_cons, List.map_map]
    congr 1
    refine List.map_congr_left fun k _ => ?_
    rw [List.drop_drop, Function.comp_apply, Nat.mul_succ, Nat.add_comm]

/-- A byte of a record is the byte at its place in the whole. -/
theorem fieldNat_record (bytes : List Byte) {start n off : Nat} (h : off < n) :
    fieldNat ((bytes.drop start).take n) off 1 = fieldNat bytes (start + off) 1 := by
  simp only [fieldNat_one, fieldByte, List.getD_eq_getElem?_getD, List.getElem?_take_of_lt h, List.getElem?_drop]

theorem map_rawColour_records (payload : List Byte) (count : Nat) :
    (records 4 count (payload.drop 2)).map rawColour = (List.range count).map (sentColour payload) := by
  rw [records_eq_map, List.map_map]
  refine List.map_congr_left fun k _ => ?_
  have hplace : ∀ off, off < 4 →
      fieldNat ((payload.drop (2 + 4 * k)).take 4) off 1 = fieldNat payload (2 + off + 4 * k) 1 := fun off h => by
    rw [fieldNat_record payload h, Nat.add_right_comm]
  simp only [Function.comp_apply, List.drop_drop, rawColour, sentColour, hplace 0 (by decide), hplace 1 (by decide),
    hplace 2 (by decide), hplace 3 (by decide)]

/-! ### Clamping (R31) -/

theorem clampNat_eq_iff {x lo hi : Nat} (h : lo ≤ hi) : clampNat x lo hi = x ↔ lo ≤ x ∧ x ≤ hi := by
  unfold clampNat
  omega

/-- Clamping changes an entry where one of Y, Cb and Cr is out of its range. -/
theorem Colour.clamp_ne_iff (c : Colour) :
    c.clamp ≠ c ↔ c.y < 16 ∨ 235 < c.y ∨ c.cb < 16 ∨ 240 < c.cb ∨ c.cr < 16 ∨ 240 < c.cr := by
  obtain ⟨y, cb, cr, key⟩ := c
  have luma := clampNat_eq_iff (x := y) (lo := 16) (hi := 235) (by decide)
  have chroma (x : Nat) := clampNat_eq_iff (x := x) (lo := 16) (hi := 240) (by decide)
  simp only [Colour.clamp, ne_eq, Colour.mk.injEq, luma, chroma, and_true, not_and_or, Nat.not_le, or_assoc]

/-! ### Writing the entries (R31) -/

/-- Entries written from `e` on replace the palette's from there, as many as there are, and leave the others. -/
theorem writeEntries_getElem (v : Vector Colour 32) (e : Nat) (cs : List Colour) (i : Fin 32) :
    (writeEntries v e cs)[i] = if e ≤ i.val then cs[i.val - e]?.getD v[i] else v[i] := by
  induction cs generalizing v e with
  | nil => simp [writeEntries]
  | cons c rest ih =>
    rw [writeEntries, ih]
    rcases Nat.lt_trichotomy i.val e with h | h | h
    · have hbefore : ¬e + 1 ≤ i.val := by omega
      simp [hbefore, Nat.not_le.2 h, Nat.ne_of_gt h]
    · subst h
      simp
    · obtain ⟨k, hk⟩ : ∃ k, i.val = e + 1 + k := ⟨i.val - (e + 1), by omega⟩
      have hplace : i.val - e = k + 1 := by omega
      have hrest : i.val - (e + 1) = k := by omega
      simp [Nat.succ_le_of_lt h, h.le, hplace, hrest, Nat.ne_of_lt h]

/-! ### The owner's cases (R31) -/

/-- The entries that a PALETTE WRITE carries, clamped. -/
def clampedColours (p : Packet) : List Colour :=
  (List.range (fieldNat p.payload 1 1)).map fun k => (sentColour p.payload k).clamp

section Owner

variable {p : Packet} (s : State)

theorem ownPaletteWrite_refused
    (h : 31 < fieldNat p.payload 0 1 ∨ fieldNat p.payload 1 1 < 1 ∨ 32 < fieldNat p.payload 1 1 ∨
      32 < fieldNat p.payload 0 1 + fieldNat p.payload 1 1) :
    ownPaletteWrite p s = s.finish p.link .range [] := if_pos h

theorem ownPaletteWrite_stored
    (h : ¬(31 < fieldNat p.payload 0 1 ∨ fieldNat p.payload 1 1 < 1 ∨ 32 < fieldNat p.payload 1 1 ∨
      32 < fieldNat p.payload 0 1 + fieldNat p.payload 1 1)) :
    ownPaletteWrite p s =
      (s.setOutput { s.output with
        staged := writeEntries s.output.staged (fieldNat p.payload 0 1) (clampedColours p) }).finish p.link
        (okOr (clampedColours p != (List.range (fieldNat p.payload 1 1)).map (sentColour p.payload))) [] := by
  unfold ownPaletteWrite
  dsimp only
  rw [if_neg h, map_rawColour_records, List.map_map]
  rfl

end Owner

/-- Clamping changes what a PALETTE WRITE carries where it changes one of its entries. -/
theorem clampedColours_ne_iff (p : Packet) :
    clampedColours p ≠ (List.range (fieldNat p.payload 1 1)).map (sentColour p.payload) ↔
      ∃ k, k < fieldNat p.payload 1 1 ∧ (sentColour p.payload k).clamp ≠ sentColour p.payload k := by
  rw [clampedColours, Ne, List.map_inj_left]
  simp only [List.mem_range, not_forall, exists_prop, ne_eq]

/-- Settles O16, by the owner's two cases. -/
theorem paletteWriteStagesEntries : Obligations.PaletteWriteStagesEntries := by
  intro p s ht e c
  have run : exec (.paletteWrite p) s = .next (ownPaletteWrite p (s.taken .paletteWrite p)) := exec_of_takes rfl ht
  have stored (he : e ≤ 31) (h1 : 1 ≤ c) (h2 : c ≤ 32) (hc : e + c ≤ 32) :=
    run.trans (congrArg _ (ownPaletteWrite_stored (p := p) (s.taken .paletteWrite p) (by omega)))
  refine ⟨fun h => ?refused, fun he h1 h2 hc => ?entries, fun he h1 h2 hc => ?status⟩
  case refused => rw [run, ownPaletteWrite_refused _ h]
  case entries =>
    refine ⟨_, stored he h1 h2 hc, ?_, fun i => ?_⟩
    · rw [State.finish_output, State.setOutput_output, State.taken_output_palette]
    · rw [State.finish_output, State.setOutput_output, State.taken_output_staged, writeEntries_getElem]
      by_cases hi : e ≤ i.val ∧ i.val < e + c
      · have hk : i.val - e < c := by omega
        rw [if_pos hi, if_pos hi.1, clampedColours, List.getElem?_map, List.getElem?_range hk]
        rfl
      · rw [if_neg hi]
        split
        · rw [clampedColours, List.getElem?_eq_none (by rw [List.length_map, List.length_range]; omega)]
          rfl
        · rfl
  case status =>
    refine ⟨_, _, stored he h1 h2 hc,
      (State.finish_port _ _ _ _).trans (congrArg (Port.finish _ []) (State.setOutput_port _ _ _)), okOr_eq_or _, ?_⟩
    · rw [okOr_eq_adjusted_iff, bne_iff_ne, clampedColours_ne_iff]
      simp only [Colour.clamp_ne_iff, sentColour, c]

end Sys2Proof.Machine
end

section
/-! The ranges of the output stage through every step (O17). -/

namespace Sys2Proof.Machine

/-! ### The output stage's own operations keep its ranges (R19, Table 2-1) -/

section Ranges

variable {o : OutputStage}

/-- The slope's range outside a fade (Table 2-1). -/
abbrev OutputStage.slopeLegal (o : OutputStage) : Prop := o.slope = 0 ∨ (262 ≤ o.slope ∧ o.slope ≤ accTop)

theorem OutputStage.legal_dark (hs : o.state = .dark) (ha : o.acc = 0) (hl : o.slopeLegal) : o.legal :=
  ⟨ha ▸ Nat.zero_le _, fun _ => ha, by simp [hs], hl, by simp [hs]⟩

theorem OutputStage.legal_onAir (hs : o.state = .onAir) (ha : o.acc = accTop) (hl : o.slopeLegal) : o.legal :=
  ⟨ha.le, by simp [hs], fun _ => ha, hl, by simp [hs]⟩

theorem OutputStage.legal_fading (hs : o.state = .fadeIn ∨ o.state = .fadeOut) (ha : o.acc ≤ accTop)
    (hl : 262 ≤ o.slope ∧ o.slope ≤ accTop) : o.legal := by
  refine ⟨ha, fun h => ?_, fun h => ?_, Or.inr hl, fun _ => hl.1⟩
  · simp [h] at hs
  · simp [h] at hs

/-- During a fade the slope is never 0 (Table 2-1). -/
theorem OutputStage.slope_fading (h : o.legal) (hs : o.state = .fadeIn ∨ o.state = .fadeOut) :
    262 ≤ o.slope ∧ o.slope ≤ accTop := by
  obtain ⟨-, -, -, hslope, hfade⟩ := h
  have := hfade hs
  exact hslope.resolve_left (by omega)

theorem OutputStage.take_legal (h : o.legal) {d : Nat} (hd : d ≤ maxDuration) : (o.take d).legal := by
  obtain ⟨htop, hdark, hair, hslope, hfade⟩ := h
  rw [OutputStage.take_eq]
  by_cases h1 : 1 ≤ d
  · have hbounds := slopeOf_bounds h1 hd
    rw [if_pos h1]
    by_cases ha : o.state = .onAir
    · rw [if_neg fun h => h.2 ha]
      exact OutputStage.legal_onAir ha (hair ha) (Or.inr hbounds)
    · rw [if_pos ⟨h1, ha⟩]
      exact OutputStage.legal_fading (Or.inl rfl) htop hbounds
  · rw [if_neg h1, if_neg fun h => h1 h.1]
    exact ⟨htop, hdark, hair, hslope, hfade⟩

theorem OutputStage.clear_legal (h : o.legal) {d : Nat} (hd : d ≤ maxDuration) : (o.clear d).legal := by
  obtain ⟨htop, hdark, hair, hslope, hfade⟩ := h
  rw [OutputStage.clear_eq]
  by_cases h1 : 1 ≤ d ∧ o.state ≠ .dark
  · rw [if_pos h1, if_pos h1]
    exact OutputStage.legal_fading (Or.inr rfl) htop (slopeOf_bounds h1.1 hd)
  · rw [if_neg h1, if_neg h1]
    exact ⟨htop, hdark, hair, hslope, hfade⟩

/-- A fade in ends at the top, where it becomes ON_AIR, and a fade out at 0, where it becomes DARK (R21). -/
theorem OutputStage.fadeStep_legal (h : o.legal) : o.fadeStep.legal := by
  have ⟨htop, _, _, hslope, _⟩ := h
  cases hs : o.state with
  | dark => rwa [OutputStage.fadeStep_still (Or.inl hs)]
  | onAir => rwa [OutputStage.fadeStep_still (Or.inr hs)]
  | fadeIn =>
    have hfading := OutputStage.slope_fading h (Or.inl hs)
    rw [OutputStage.fadeStep_fadeIn hs]
    by_cases hend : accTop ≤ o.acc + o.slope
    · rw [if_pos hend]
      exact OutputStage.legal_onAir rfl (min_eq_right hend) hslope
    · rw [if_neg hend]
      exact OutputStage.legal_fading (Or.inl rfl) (min_le_right _ _) hfading
  | fadeOut =>
    have hfading := OutputStage.slope_fading h (Or.inr hs)
    rw [OutputStage.fadeStep_fadeOut hs]
    by_cases hend : o.acc ≤ o.slope
    · rw [if_pos hend]
      exact OutputStage.legal_dark rfl (Nat.sub_eq_zero_of_le hend) hslope
    · rw [if_neg hend]
      exact OutputStage.legal_fading (Or.inr rfl) ((Nat.sub_le _ _).trans htop) hfading

/-- A pending cut puts the output at an end of the accumulator, or is dropped (R22). -/
theorem OutputStage.frame_legal (h : o.legal) (loaded : Bool) : (o.frame loaded).legal := by
  have ⟨_, _, _, hslope, _⟩ := h
  cases hc : o.cut with
  | none =>
    rw [OutputStage.frame_noCut hc]
    exact OutputStage.fadeStep_legal h
  | some c =>
    cases c with
    | toDark =>
      rw [OutputStage.frame_toDark hc]
      exact OutputStage.legal_dark rfl rfl hslope
    | toOnAir =>
      cases loaded with
      | true =>
        rw [OutputStage.frame_toOnAir hc]
        exact OutputStage.legal_onAir rfl rfl hslope
      | false =>
        rw [OutputStage.frame_toOnAir_dropped hc]
        exact h

end Ranges

/-! ### Every command keeps the ranges -/

/-- A command that changes nothing of the output stage but its key enable keeps its ranges. -/
theorem Frame.output_legal {bs : List Block} {s t : State} (hf : Frame bs s t) (hb : Block.output ∉ bs)
    (hl : s.output.legal) : t.output.legal := by
  have hkey : t.output = { s.output with keyEnable := t.output.keyEnable, keyDropAt := t.output.keyDropAt } :=
    hf .output hb
  rw [hkey]
  exact hl

/-- The command leaves the ranges of the output stage. -/
def KeepsOutputLegal (c : Instr) : Prop := ∀ s, s.output.legal → ∃ t, exec c s = .next t ∧ t.output.legal

/-- A command that does not touch the output stage. -/
theorem keepsOutputLegal_untouched {c : Instr} (h : Block.output ∉ touched c) : KeepsOutputLegal c := fun s hl => by
  obtain ⟨t, ht, hf⟩ := keepsOthers c s
  exact ⟨t, ht, hf.output_legal h hl⟩

/-- A packet command whose owner keeps the ranges: a packet that is not taken moves the clock alone (R162). -/
theorem keepsOutputLegal_packet {c : Instr} {k : Kind} {p : Packet} {own : Packet → State → State}
    (hc : ∀ s, exec c s = .next (serve k p own s)) (h : ∀ s, s.output.legal → (own p s).output.legal) :
    KeepsOutputLegal c := fun s hl =>
  ⟨_, hc s, serve_cases (P := fun t => t.output.legal) hl
    (fun st => by
      rw [State.refuse_output]
      exact (frame_arrive s p).output_legal (by simp [packetBlocks]) hl)
    (h _ ((frame_taken k s p).output_legal (by simp [packetBlocks]) hl))⟩

section Owners

variable (p : Packet) {s : State}

theorem ownTake_output_legal (hl : s.output.legal) : (ownTake p s).output.legal := by
  by_cases h : s.pages.loaded = none
  · rw [ownTake_noPage p h, State.finish_output]
    exact hl
  · rw [ownTake_accepted p h, State.finish_output, State.notifyOutput_output]
    exact OutputStage.take_legal hl (min_le_right _ _)

theorem ownClear_output_legal (hl : s.output.legal) : (ownClear p s).output.legal := by
  rw [ownClear_eq, State.finish_output, State.notifyOutput_output]
  exact OutputStage.clear_legal hl (min_le_right _ _)

theorem ownPaletteWrite_output_legal (hl : s.output.legal) : (ownPaletteWrite p s).output.legal := by
  unfold ownPaletteWrite
  dsimp only
  split
  · rw [State.finish_output]
    exact hl
  · rw [State.finish_output]
    exact hl

end Owners

theorem keepsOutputLegal_frameStart (order : List FramePart) : KeepsOutputLegal (.frameStart order) := fun s hl => by
  obtain ⟨t, ht, hf⟩ := frameStart_next order s
  refine ⟨t, ht, hf.output_legal (by simp) ?_⟩
  rw [enterFrame_framed_output]
  split
  · exact hl
  · exact OutputStage.frame_legal hl s.pages.loaded.isSome

theorem keepsOutputLegal_pendingCut : KeepsOutputLegal .pendingCut := fun s hl => by
  cases hc : s.output.cut with
  | none => exact ⟨s, by simp only [exec, execPendingCut, hc], hl⟩
  | some c =>
    by_cases ha : FramePart.output ∈ s.ahead
    · exact ⟨s, by simp only [exec, execPendingCut, hc, (isAhead_iff s _).2 ha, if_true], hl⟩
    · obtain ⟨enable, drop, hout⟩ := enterFrame_outputFrame_output s
      refine ⟨_, pendingCut_acts hc ha, ?_⟩
      rw [State.notifyOutput_output, State.markAhead_output, hout]
      exact OutputStage.frame_legal hl s.pages.loaded.isSome

theorem keepsOutputLegal_panicActs : KeepsOutputLegal .panicActs := fun s hl => by
  by_cases h : s.studio.holds .panic = true
  · obtain ⟨enable, drop, hout⟩ := panicked_output s
    obtain ⟨-, -, -, hslope, -⟩ := hl
    refine ⟨_, panicActs_acts h, ?_⟩
    rw [State.finish_output, State.notifyOutput_output, hout]
    exact OutputStage.legal_dark rfl rfl hslope
  · exact ⟨s, congrArg Host.Outcome.next (if_neg h), hl⟩

theorem keepsOutputLegal (c : Instr) : KeepsOutputLegal c := by
  cases c with
  | powerOnReset high => exact fun s _ => ⟨_, rfl, OutputStage.legal_dark rfl rfl (Or.inl rfl)⟩
  | frameStart order => exact keepsOutputLegal_frameStart order
  | pendingCut => exact keepsOutputLegal_pendingCut
  | panicActs => exact keepsOutputLegal_panicActs
  | take p => exact keepsOutputLegal_packet (fun _ => rfl) fun _ => ownTake_output_legal p
  | clear p => exact keepsOutputLegal_packet (fun _ => rfl) fun _ => ownClear_output_legal p
  | paletteWrite p => exact keepsOutputLegal_packet (fun _ => rfl) fun _ => ownPaletteWrite_output_legal p
  | _ => exact keepsOutputLegal_untouched (by simp [touched, packetBlocks])

/-! ### Every step keeps the ranges -/

/-- With an empty queue a step moves the clock and draws (log 1, log 9). -/
theorem tick_output_legal {s : State} (hl : s.output.legal) : s.tick.output.legal := by
  have hdrawn : s.drawOne.output.legal := (frame_drawOne s).output_legal (by simp) hl
  unfold State.tick State.passPeriod
  split
  · exact (frame_advanceTo _ _).output_legal (by simp) hdrawn
  · exact hdrawn

/-- Settles O17: the tick, and each command on the state with the queue's rest. -/
theorem outputLegalKept : Obligations.OutputLegalKept := by
  intro s t hl hstep
  cases hq : s.pending with
  | nil =>
    simp only [step, hq, Host.Outcome.next.injEq] at hstep
    exact hstep ▸ tick_output_legal hl
  | cons c rest =>
    simp only [step, hq] at hstep
    obtain ⟨u, hu, hkept⟩ := keepsOutputLegal c (s.withPending rest) hl
    obtain rfl : u = t := by simpa only [hu, Host.Outcome.next.injEq] using hstep
    exact hkept

end Sys2Proof.Machine
end

section
/-! PAGE DEFINE, PAGE DELETE and PAGE READ (O19). -/

namespace Sys2Proof.Machine

/-! ### The content of a page goes (R41, R43) -/

section Content

variable (r : Render) (p : Fin 16)

/-- A buffer loses its tag where it names the page whose content goes (R41, R43). -/
theorem FrameBuffer.untag_tag_ne (b : FrameBuffer) : (b.untag p).tag ≠ some p := by
  unfold FrameBuffer.untag
  split
  · exact fun h => nomatch h
  · assumption

theorem Render.contentGone_bufferA_tag : (r.contentGone p).bufferA.tag ≠ some p := r.bufferA.untag_tag_ne p

theorem Render.contentGone_bufferB_tag : (r.contentGone p).bufferB.tag ≠ some p := r.bufferB.untag_tag_ne p

end Content

/-- The state with the content of one page replaced or removed, and the tags and the job that name the page told so (R41, R43). -/
def State.setContent (s : State) (p : Fin 16) (content : Option PageRecord) : State :=
  (s.setPages { s.pages with pages := s.pages.pages.set p content }).setRender (s.render.contentGone p)

section SetContent

variable (s : State) (p : Fin 16) (content : Option PageRecord)

theorem State.setContent_same : (s.setContent p content).pages.pages[p] = content := by
  simp [State.setContent]

theorem State.setContent_other {q : Fin 16} (h : q ≠ p) :
    (s.setContent p content).pages.pages[q] = s.pages.pages[q] := by
  simp [State.setContent, Fin.val_ne_of_ne h.symm]

@[simp] theorem State.setContent_loaded : (s.setContent p content).pages.loaded = s.pages.loaded := rfl
@[simp] theorem State.setContent_outgoing : (s.setContent p content).pages.outgoing = s.pages.outgoing := rfl
@[simp] theorem State.setContent_render : (s.setContent p content).render = s.render.contentGone p := rfl
@[simp] theorem State.setContent_port (l : Link) : (s.setContent p content).port l = s.port l := by cases l <;> rfl

end SetContent

/-! ### The owners' cases (R41, R43) -/

section Owner

variable {p : Packet} {s : State}

theorem ownPageDefine_inUse (h : s.pages.keyed (pageOf p) = true) :
    ownPageDefine p s = s.finish p.link .pageInUse [] := if_pos h

theorem ownPageDefine_refused (h : s.pages.keyed (pageOf p) = false) (hp : parsePage p.payload = none) :
    ownPageDefine p s = s.finish p.link .range [] := by
  simp [ownPageDefine, State.pageHeld, h, hp]

theorem ownPageDefine_viewport {rec : PageRecord} {adjusted : Bool} (h : s.pages.keyed (pageOf p) = false)
    (hp : parsePage p.payload = some (rec, adjusted)) (hv : rec.view.accepted = false) :
    ownPageDefine p s = s.finish p.link .viewport [] := by
  simp [ownPageDefine, State.pageHeld, h, hp, hv]

theorem ownPageDefine_stored {rec : PageRecord} {adjusted : Bool} (h : s.pages.keyed (pageOf p) = false)
    (hp : parsePage p.payload = some (rec, adjusted)) (hv : rec.view.accepted = true) :
    ownPageDefine p s = (s.setContent (pageOf p) (some rec)).finish p.link (okOr adjusted) [] := by
  simp [ownPageDefine, State.pageHeld, State.setContent, h, hp, hv]

theorem ownPageDelete_inUse (h : s.pages.keyed (pageOf p) = true) :
    ownPageDelete p s = s.finish p.link .pageInUse [] := if_pos h

theorem ownPageDelete_empty (h : s.pages.keyed (pageOf p) = false) (he : s.pages.pages[pageOf p] = none) :
    ownPageDelete p s = s.finish p.link .ok [] := by
  unfold ownPageDelete State.pageHeld
  dsimp only
  rw [h, if_neg Bool.false_ne_true, he]

theorem ownPageDelete_removed (h : s.pages.keyed (pageOf p) = false) (he : s.pages.pages[pageOf p] ≠ none) :
    ownPageDelete p s = (s.setContent (pageOf p) none).finish p.link .ok [] := by
  obtain ⟨rec, hrec⟩ := Option.ne_none_iff_exists'.1 he
  unfold ownPageDelete State.pageHeld
  dsimp only
  rw [h, if_neg Bool.false_ne_true, hrec]
  rfl

end Owner

/-- What PAGE READ answers does not depend on the packet that asks (R44). -/
theorem ownPageRead_taken (p : Packet) (s : State) :
    ownPageRead p (s.taken .pageRead p) = (s.taken .pageRead p).finish p.link .ok (pageReadResult s (pageOf p)) := by
  have result : pageReadResult (s.taken .pageRead p) (pageOf p) = pageReadResult s (pageOf p) := by
    simp only [pageReadResult, State.taken_pages]
  rw [ownPageRead, result]

/-- Settles O19, by the owners' cases in their order. -/
theorem pageContentCommands : Obligations.PageContentCommands := by
  have define (p : Packet) (s : State) (ht : takes .pageDefine p s = true) :
      exec (.pageDefine p) s = .next (ownPageDefine p (s.taken .pageDefine p)) := exec_of_takes rfl ht
  have delete (p : Packet) (s : State) (ht : takes .pageDelete p s = true) :
      exec (.pageDelete p) s = .next (ownPageDelete p (s.taken .pageDelete p)) := exec_of_takes rfl ht
  refine ⟨fun p s ht hk => ?defineInUse, fun p s ht hk hp => ?defineRefused,
    fun p s rec adjusted ht hk hp => ⟨fun hv => ?defineViewport, fun hv => ?defineStored⟩,
    fun p s ht hk => ?deleteInUse, fun p s ht hk => ?deleted, fun p s ht => ?read⟩
  case defineInUse => rw [define p s ht, ownPageDefine_inUse (by rwa [State.taken_pages])]
  case defineRefused => rw [define p s ht, ownPageDefine_refused (by rwa [State.taken_pages]) hp]
  case defineViewport => rw [define p s ht, ownPageDefine_viewport (by rwa [State.taken_pages]) hp hv]
  case defineStored =>
    refine ⟨_, (define p s ht).trans (congrArg _ (ownPageDefine_stored (by rwa [State.taken_pages]) hp hv)), ?_⟩
    rw [State.finish_pages, State.finish_render, State.finish_port, State.setContent_port]
    exact ⟨State.setContent_same _ _ _, fun q hq => by rw [State.setContent_other _ _ _ hq, State.taken_pages],
      by rw [State.setContent_loaded, State.taken_pages], by rw [State.setContent_outgoing, State.taken_pages],
      Render.contentGone_bufferA_tag _ _, Render.contentGone_bufferB_tag _ _, rfl⟩
  case deleteInUse => rw [delete p s ht, ownPageDelete_inUse (by rwa [State.taken_pages])]
  case deleted =>
    by_cases he : s.pages.pages[pageOf p] = none
    · refine ⟨_, (delete p s ht).trans (congrArg _ (ownPageDelete_empty (by rwa [State.taken_pages])
        (by rwa [State.taken_pages]))), ?_⟩
      rw [State.finish_pages, State.finish_port, State.taken_pages]
      exact ⟨he, fun _ _ => rfl, fun hne => absurd he hne, rfl⟩
    · refine ⟨_, (delete p s ht).trans (congrArg _ (ownPageDelete_removed (by rwa [State.taken_pages])
        (by rwa [State.taken_pages]))), ?_⟩
      rw [State.finish_pages, State.finish_render, State.finish_port, State.setContent_port]
      exact ⟨State.setContent_same _ _ _, fun q hq => by rw [State.setContent_other _ _ _ hq, State.taken_pages],
        fun _ => ⟨Render.contentGone_bufferA_tag _ _, Render.contentGone_bufferB_tag _ _⟩, rfl⟩
  case read =>
    exact (exec_of_takes (own := ownPageRead) rfl ht).trans (congrArg Host.Outcome.next (ownPageRead_taken p s))

end Sys2Proof.Machine
end

section
/-! LOAD and UNLOAD (O21). -/

namespace Sys2Proof.Machine

/-! ### The page table after a LOAD (R46, Table 3-4) -/

section Load

variable {t : PageTable} {p : Fin 16}

/-- A LOAD that finds no page LOADED leaves the OUTGOING page (R46). -/
theorem PageTable.load_first (h : t.loaded = none) (dark : Bool) :
    t.load dark p = { t with loaded := some p } := by
  simp only [PageTable.load, h]

/-- In DARK no page becomes or stays OUTGOING (R46). -/
theorem PageTable.load_dark (h : t.loaded ≠ none) : t.load true p = { t with loaded := some p, outgoing := none } := by
  obtain ⟨q, hq⟩ := Option.ne_none_iff_exists'.1 h
  simp only [PageTable.load, hq, if_true]

/-- The former page becomes OUTGOING where none is (R46). -/
theorem PageTable.load_replaces (h : t.loaded ≠ none) (ho : t.outgoing = none) :
    t.load false p = { t with loaded := some p, outgoing := t.loaded } := by
  obtain ⟨q, hq⟩ := Option.ne_none_iff_exists'.1 h
  simp only [PageTable.load, hq, ho, Bool.false_eq_true, if_false]

/-- The OUTGOING page that is loaded again is OUTGOING no more (R46). -/
theorem PageTable.load_returns (h : t.loaded ≠ none) (ho : t.outgoing = some p) :
    t.load false p = { t with loaded := some p, outgoing := none } := by
  obtain ⟨q, hq⟩ := Option.ne_none_iff_exists'.1 h
  simp only [PageTable.load, hq, ho, Bool.false_eq_true, if_false, if_true]

/-- Another page that is OUTGOING already stays so (R46). -/
theorem PageTable.load_stays {q : Fin 16} (h : t.loaded ≠ none) (ho : t.outgoing = some q) (hq : q ≠ p) :
    t.load false p = { t with loaded := some p } := by
  obtain ⟨l, hl⟩ := Option.ne_none_iff_exists'.1 h
  simp only [PageTable.load, hl, ho, Bool.false_eq_true, if_false, hq]

end Load

/-! ### The owners' cases (R45, R48) -/

section Owner

variable {p : Packet} {s : State}

/-- The state once LOAD of page `p` has changed the LOADED page, before its answer (R46, R114). -/
def State.loadPage (s : State) (p : Fin 16) : State :=
  ((s.setPages (s.pages.load (s.output.state == .dark) p)).setRender { s.render with newlyLoaded := some p }).dropKey

/-- The state once UNLOAD has returned the LOADED page to DEFINED, before its answer (R48, R114). -/
def State.unloadPage (s : State) : State :=
  ((s.setPages { s.pages with loaded := none }).setRender { s.render with newlyLoaded := none }).dropKey

theorem loadPage_pages (p : Fin 16) : (s.loadPage p).pages = s.pages.load (s.output.state == .dark) p :=
  (frame_dropKey _).pages_eq (by simp)

theorem unloadPage_pages : s.unloadPage.pages = { s.pages with loaded := none } := (frame_dropKey _).pages_eq (by simp)

theorem loadPage_newlyLoaded (p : Fin 16) : (s.loadPage p).render.newlyLoaded = some p :=
  congrArg Render.newlyLoaded ((frame_dropKey _).render_eq (by simp))

theorem unloadPage_newlyLoaded : s.unloadPage.render.newlyLoaded = none :=
  congrArg Render.newlyLoaded ((frame_dropKey _).render_eq (by simp))

theorem loadPage_port (p : Fin 16) (l : Link) : (s.loadPage p).port l = s.port l :=
  ((frame_dropKey _).port_eq l (by simp)).trans (by simp)

theorem unloadPage_port (l : Link) : s.unloadPage.port l = s.port l :=
  ((frame_dropKey _).port_eq l (by simp)).trans (by simp)

theorem ownLoad_empty (h : s.pages.pages[pageOf p] = none) : ownLoad p s = s.finish p.link .range [] :=
  if_pos (Option.isNone_iff_eq_none.2 h)

theorem ownLoad_again (h : s.pages.pages[pageOf p] ≠ none) (hl : s.pages.loaded = some (pageOf p)) :
    ownLoad p s = s.finish p.link .ok (loadResult s.pages) := by
  unfold ownLoad
  dsimp only
  rw [if_neg (mt Option.isNone_iff_eq_none.1 h), if_pos hl]

theorem ownLoad_busy (h : s.pages.pages[pageOf p] ≠ none) (hl : s.pages.loaded ≠ some (pageOf p))
    (hc : s.chart.op ≠ none) : ownLoad p s = s.finish p.link .chartBusy [] := by
  unfold ownLoad
  dsimp only
  rw [if_neg (mt Option.isNone_iff_eq_none.1 h), if_neg hl, if_pos (Option.isSome_iff_ne_none.2 hc)]

theorem ownLoad_changes (h : s.pages.pages[pageOf p] ≠ none) (hl : s.pages.loaded ≠ some (pageOf p))
    (hc : s.chart.op = none) :
    ownLoad p s = (s.loadPage (pageOf p)).finish p.link .ok (loadResult (s.loadPage (pageOf p)).pages) := by
  rw [loadPage_pages]
  unfold ownLoad
  dsimp only
  rw [if_neg (mt Option.isNone_iff_eq_none.1 h), if_neg hl, hc, Option.isSome_none, if_neg Bool.false_ne_true]
  rfl

theorem ownUnload_noPage (h : s.pages.loaded = none) : ownUnload p s = s.finish p.link .noPage [] := if_pos h

theorem ownUnload_inUse (h : s.pages.loaded ≠ none) (hs : s.output.state ≠ .dark) :
    ownUnload p s = s.finish p.link .pageInUse [] := by
  unfold ownUnload
  rw [if_neg h, if_pos hs]

theorem ownUnload_dark (h : s.pages.loaded ≠ none) (hs : s.output.state = .dark) :
    ownUnload p s = s.unloadPage.finish p.link .ok [] := by
  unfold ownUnload
  rw [if_neg h, if_neg (not_not_intro hs)]
  rfl

end Owner

/-- Settles O21, by the owners' cases in their order, and what a LOAD makes of the page table in each. -/
theorem loadAndUnloadAct : Obligations.LoadAndUnloadAct := by
  have load (p : Packet) (s : State) (ht : takes .load p s = true) :
      exec (.load p) s = .next (ownLoad p (s.taken .load p)) := exec_of_takes rfl ht
  have unload (p : Packet) (s : State) (ht : takes .unload p s = true) :
      exec (.unload p) s = .next (ownUnload p (s.taken .unload p)) := exec_of_takes rfl ht
  refine ⟨fun p s ht => ⟨fun he => ?empty, fun he hl => ?again, fun he hl hc => ?busy, fun he hl hc => ?changes⟩,
    fun p s ht => ⟨fun hl => ?noPage, fun hl hs => ?inUse, fun hl hs => ?unloads⟩⟩
  case empty => rw [load p s ht, ownLoad_empty (by rwa [State.taken_pages])]
  case again =>
    rw [load p s ht, ownLoad_again (by rwa [State.taken_pages]) (by rwa [State.taken_pages]), loadResult,
      State.taken_pages, hl]
    rfl
  case busy =>
    rw [load p s ht, ownLoad_busy (by rwa [State.taken_pages]) (by rwa [State.taken_pages])
      (by rwa [State.taken_chart])]
  case changes =>
    have hpages := loadPage_pages (s := s.taken .load p) (pageOf p)
    rw [State.taken_pages, State.taken_output_state] at hpages
    refine ⟨_, (load p s ht).trans (congrArg _ (ownLoad_changes (by rwa [State.taken_pages]) (by rwa [State.taken_pages])
      (by rwa [State.taken_chart]))), ?_⟩
    rw [State.finish_pages, State.finish_render, State.finish_port, loadPage_port, loadPage_newlyLoaded, loadResult, hpages]
    refine ⟨rfl, rfl, rfl, rfl, fun hs h => ?_, fun h => ?_, fun hs h ho => ?_, fun hs h ho => ?_, fun q hs h ho hq => ?_⟩
    · rw [hs, beq_self_eq_true, PageTable.load_dark h]
    · rw [PageTable.load_first h]
    · rw [beq_false_of_ne hs, PageTable.load_replaces h ho]
    · rw [beq_false_of_ne hs, PageTable.load_returns h ho]
    · rw [beq_false_of_ne hs, PageTable.load_stays h ho hq]
      exact ho
  case noPage => rw [unload p s ht, ownUnload_noPage (by rwa [State.taken_pages])]
  case inUse =>
    rw [unload p s ht, ownUnload_inUse (by rwa [State.taken_pages]) (by rwa [State.taken_output_state])]
  case unloads =>
    refine ⟨_, (unload p s ht).trans (congrArg _ (ownUnload_dark (by rwa [State.taken_pages])
      (by rwa [State.taken_output_state]))), ?_⟩
    rw [State.finish_pages, State.finish_render, State.finish_port, unloadPage_pages, unloadPage_port,
      unloadPage_newlyLoaded, State.taken_pages]
    exact ⟨rfl, rfl, rfl, rfl, rfl⟩

end Sys2Proof.Machine
end

section
/-! The page table's states through every step (O22). -/

namespace Sys2Proof.Machine

/-! ### The page table's own operations keep its states (R33, R46, R47) -/

section Table

variable {t : PageTable} {state : OutputState}

theorem PageTable.legal_mono {state' : OutputState} (h : t.legal state) (hd : state' = .dark → state = .dark) :
    t.legal state' := by
  obtain ⟨hloaded, houtgoing, hdistinct, hbehind, hdark⟩ := h
  exact ⟨hloaded, houtgoing, hdistinct, hbehind, fun hs => hdark (hd hs)⟩

/-- With no page OUTGOING the LOADED page alone matters, in any output state (R47). -/
theorem PageTable.legal_noOutgoing (ho : t.outgoing = none) (h : ∀ p, t.loaded = some p → t.pages[p] ≠ none) :
    t.legal state := by
  refine ⟨h, fun p hp => ?_, ?_, fun hne => absurd ho hne, fun _ => ho⟩
  · rw [ho] at hp
    exact nomatch hp
  · rw [ho]
    exact em _

theorem PageTable.legal_endOutgoing (h : t.legal state) (state' : OutputState) :
    PageTable.legal { t with outgoing := none } state' := by
  obtain ⟨hloaded, -⟩ := h
  exact PageTable.legal_noOutgoing rfl hloaded

/-- Content is replaced or removed of a page that is neither LOADED nor OUTGOING (R41, R43). -/
theorem PageTable.legal_setContent (h : t.legal state) {p : Fin 16} (hk : t.keyed p = false)
    (content : Option PageRecord) : PageTable.legal { t with pages := t.pages.set p content } state := by
  obtain ⟨hloaded, houtgoing, hdistinct, hbehind, hdark⟩ := h
  simp only [PageTable.keyed, Bool.or_eq_false_iff, beq_eq_false_iff_ne] at hk
  have hother {q : Fin 16} (hq : q ≠ p) : (t.pages.set p content)[q] = t.pages[q] := by
    simp [Fin.val_ne_of_ne hq.symm]
  refine ⟨fun q hq => ?_, fun q hq => ?_, hdistinct, hbehind, hdark⟩
  · rw [hother fun e => hk.1 (e ▸ hq)]
    exact hloaded q hq
  · rw [hother fun e => hk.2 (e ▸ hq)]
    exact houtgoing q hq

/-- A LOAD of a page with content that is not LOADED yet (R46). -/
theorem PageTable.legal_load (h : t.legal state) {p : Fin 16} (hp : t.pages[p] ≠ none) (hl : t.loaded ≠ some p) :
    (t.load (state == .dark) p).legal state := by
  obtain ⟨hloaded, houtgoing, -, hbehind, -⟩ := h
  have hnew : ∀ q, some p = some q → t.pages[q] ≠ none := fun q e => Option.some.inj e ▸ hp
  by_cases hnone : t.loaded = none
  · have ho : t.outgoing = none := by
      by_contra hne
      exact hbehind hne hnone
    rw [PageTable.load_first hnone]
    exact PageTable.legal_noOutgoing ho hnew
  by_cases hs : state = .dark
  · rw [hs, beq_self_eq_true, PageTable.load_dark hnone]
    exact PageTable.legal_noOutgoing rfl hnew
  rw [beq_false_of_ne hs]
  cases ho : t.outgoing with
  | none =>
    rw [PageTable.load_replaces hnone ho]
    exact ⟨hnew, hloaded, Or.inr hl.symm, by simp, fun e => absurd e hs⟩
  | some q =>
    by_cases hq : q = p
    · rw [PageTable.load_returns hnone (hq ▸ ho)]
      exact PageTable.legal_noOutgoing rfl hnew
    · rw [PageTable.load_stays hnone ho hq]
      exact ⟨hnew, houtgoing, Or.inr (by simpa [ho] using Ne.symm hq), by simp, fun e => absurd e hs⟩

/-- In DARK no page is OUTGOING, so none is left OUTGOING alone (R47, R48). -/
theorem PageTable.legal_unload (h : t.legal .dark) : PageTable.legal { t with loaded := none } .dark := by
  obtain ⟨-, -, -, -, hdark⟩ := h
  exact PageTable.legal_noOutgoing (hdark rfl) fun _ hp => nomatch hp

end Table

/-! ### The pages after a frame start (R26, R47) -/

/-- The output becomes DARK at the frame start now due where its own step, not handled yet, brings it there (R26). -/
theorem enterFrame_framed_dark (s : State) :
    s.isAhead .output = false ∧ (s.output.frame s.pages.loaded.isSome).state = .dark ∧ s.output.state ≠ .dark ↔
      s.output.state ≠ .dark ∧ s.enterFrame.framed.output.state = .dark := by
  rw [enterFrame_framed_output]
  cases s.isAhead .output with
  | true => simp
  | false => simp [and_comm]

/-- After the whole frame start now due an OUTGOING page has ended where a frame of the LOADED page came to the front, or the output
became DARK (R26, R47). -/
theorem enterFrame_framed_pages (s : State) :
    s.enterFrame.framed.pages =
      if (s.render.hasReady = true ∧ s.render.swap.frontTag.isSome = true ∧ s.render.swap.frontTag = s.pages.loaded) ∨
          (s.output.state ≠ .dark ∧ s.enterFrame.framed.output.state = .dark) then
        { s.pages with outgoing := none }
      else s.pages := by
  obtain ⟨enable, drop, hkey⟩ := enterFrame_output_withKey s
  have hstate : s.enterFrame.output.state = s.output.state := by rw [hkey]; rfl
  have hstep : (s.enterFrame.output.frame s.pages.loaded.isSome).state =
      (s.output.frame s.pages.loaded.isSome).state := by rw [hkey, OutputStage.withKey_frame]; rfl
  rw [framed_pages_eq, beforeRender_pages, (frame_enterFrame s).pages_eq (by simp), (frame_enterFrame s).render_eq (by simp),
    enterFrame_isAhead s (by simp), hstate, hstep, ite_or]
  exact if_congr Iff.rfl rfl (if_congr (enterFrame_framed_dark s) rfl rfl)

/-! ### Every command keeps the page table's states -/

/-- The LOADED and the OUTGOING page are as the output state allows (R33, R47). -/
abbrev State.pagesLegal (s : State) : Prop := s.pages.legal s.output.state

/-- A command that changes nothing of the output stage but its key enable leaves the output state. -/
theorem Frame.output_state_eq {bs : List Block} {s t : State} (hf : Frame bs s t) (ho : Block.output ∉ bs) :
    t.output.state = s.output.state := by
  have hkey : t.output = { s.output with keyEnable := t.output.keyEnable, keyDropAt := t.output.keyDropAt } :=
    hf .output ho
  rw [hkey]

theorem Frame.pagesLegal {bs : List Block} {s t : State} (hf : Frame bs s t) (hp : Block.pages ∉ bs)
    (ho : Block.output ∉ bs) (hl : s.pagesLegal) : t.pagesLegal := by
  rw [State.pagesLegal, hf.pages_eq hp, hf.output_state_eq ho]
  exact hl

/-- The command leaves the page table's states legal. -/
def KeepsPagesLegal (c : Instr) : Prop := ∀ s, s.pagesLegal → ∃ t, exec c s = .next t ∧ t.pagesLegal

/-- A command that touches neither the page table nor the output stage. -/
theorem keepsPagesLegal_untouched {c : Instr} (hp : Block.pages ∉ touched c) (ho : Block.output ∉ touched c) :
    KeepsPagesLegal c := fun s hl => by
  obtain ⟨t, ht, hf⟩ := keepsOthers c s
  exact ⟨t, ht, hf.pagesLegal hp ho hl⟩

/-- A packet command whose owner keeps the states: a packet that is not taken moves the clock alone (R162). -/
theorem keepsPagesLegal_packet {c : Instr} {k : Kind} {p : Packet} {own : Packet → State → State}
    (hc : ∀ s, exec c s = .next (serve k p own s)) (h : ∀ s, s.pagesLegal → (own p s).pagesLegal) :
    KeepsPagesLegal c := fun s hl =>
  ⟨_, hc s, serve_cases (P := fun t => t.pagesLegal) hl
    (fun st => ((frame_arrive s p).trans ((frame_refuse _ k.code p st).mono (by simp [packetBlocks]))).pagesLegal
      (by simp [packetBlocks]) (by simp [packetBlocks]) hl)
    (h _ ((frame_taken k s p).pagesLegal (by simp [packetBlocks]) (by simp [packetBlocks]) hl))⟩

section Owners

variable (p : Packet) {s : State}

/-- An answer leaves the page table and the output stage. -/
theorem finish_pagesLegal (l : Link) (st : Status) (result : List Byte) (hl : s.pagesLegal) :
    (s.finish l st result).pagesLegal := (frame_finish s l st result).pagesLegal (by simp) (by simp) hl

theorem setContent_pagesLegal {n : Fin 16} (hk : s.pages.keyed n = false) (content : Option PageRecord)
    (hl : s.pagesLegal) : (s.setContent n content).pagesLegal := PageTable.legal_setContent hl hk content

theorem loadPage_pagesLegal {n : Fin 16} (hn : s.pages.pages[n] ≠ none) (h : s.pages.loaded ≠ some n)
    (hl : s.pagesLegal) : (s.loadPage n).pagesLegal := by
  have hstate : (s.loadPage n).output.state = s.output.state := (frame_dropKey _).output_state_eq (by simp)
  rw [State.pagesLegal, loadPage_pages, hstate]
  exact PageTable.legal_load hl hn h

theorem unloadPage_pagesLegal (hs : s.output.state = .dark) (hl : s.pagesLegal) : s.unloadPage.pagesLegal := by
  have hstate : s.unloadPage.output.state = s.output.state := (frame_dropKey _).output_state_eq (by simp)
  rw [State.pagesLegal, unloadPage_pages, hstate, hs]
  exact PageTable.legal_unload (hs ▸ hl)

theorem ownPageDefine_pagesLegal (hl : s.pagesLegal) : (ownPageDefine p s).pagesLegal := by
  cases hk : s.pages.keyed (pageOf p) with
  | true => rw [ownPageDefine_inUse hk]; exact finish_pagesLegal _ _ _ hl
  | false =>
    cases hp : parsePage p.payload with
    | none => rw [ownPageDefine_refused hk hp]; exact finish_pagesLegal _ _ _ hl
    | some parsed =>
      obtain ⟨rec, adjusted⟩ := parsed
      cases hv : rec.view.accepted with
      | false => rw [ownPageDefine_viewport hk hp hv]; exact finish_pagesLegal _ _ _ hl
      | true =>
        rw [ownPageDefine_stored hk hp hv]
        exact finish_pagesLegal _ _ _ (setContent_pagesLegal hk _ hl)

theorem ownPageDelete_pagesLegal (hl : s.pagesLegal) : (ownPageDelete p s).pagesLegal := by
  cases hk : s.pages.keyed (pageOf p) with
  | true => rw [ownPageDelete_inUse hk]; exact finish_pagesLegal _ _ _ hl
  | false =>
    by_cases he : s.pages.pages[pageOf p] = none
    · rw [ownPageDelete_empty hk he]; exact finish_pagesLegal _ _ _ hl
    · rw [ownPageDelete_removed hk he]
      exact finish_pagesLegal _ _ _ (setContent_pagesLegal hk _ hl)

theorem ownLoad_pagesLegal (hl : s.pagesLegal) : (ownLoad p s).pagesLegal := by
  by_cases he : s.pages.pages[pageOf p] = none
  · rw [ownLoad_empty he]; exact finish_pagesLegal _ _ _ hl
  by_cases hloaded : s.pages.loaded = some (pageOf p)
  · rw [ownLoad_again he hloaded]; exact finish_pagesLegal _ _ _ hl
  by_cases hc : s.chart.op = none
  · rw [ownLoad_changes he hloaded hc]
    exact finish_pagesLegal _ _ _ (loadPage_pagesLegal he hloaded hl)
  · rw [ownLoad_busy he hloaded hc]; exact finish_pagesLegal _ _ _ hl

theorem ownUnload_pagesLegal (hl : s.pagesLegal) : (ownUnload p s).pagesLegal := by
  by_cases hloaded : s.pages.loaded = none
  · rw [ownUnload_noPage hloaded]; exact finish_pagesLegal _ _ _ hl
  by_cases hs : s.output.state = .dark
  · rw [ownUnload_dark hloaded hs]
    exact finish_pagesLegal _ _ _ (unloadPage_pagesLegal hs hl)
  · rw [ownUnload_inUse hloaded hs]; exact finish_pagesLegal _ _ _ hl

/-- An output stage that is DARK only where it was before leaves the pages legal, whatever is notified. -/
theorem setOutput_pagesLegal {o : OutputStage} (ho : o.state = .dark → s.output.state = .dark) (before : OutputState)
    (hl : s.pagesLegal) : ((s.setOutput o).notifyOutput before).pagesLegal :=
  (frame_notifyOutput _ _).pagesLegal (by simp) (by simp) (PageTable.legal_mono hl ho)

/-- An output state that a fade replaces, or that stands, is DARK only where it was. -/
theorem dark_of_ite {c : Prop} [Decidable c] {fade state : OutputState} (hf : fade ≠ .dark)
    (h : (if c then fade else state) = .dark) : state = .dark := by
  split at h
  · exact absurd h hf
  · exact h

/-- TAKE does not make the output DARK at once (Table 2-3). -/
theorem OutputStage.take_dark {o : OutputStage} (d : Nat) (h : (o.take d).state = .dark) : o.state = .dark := by
  rw [OutputStage.take_eq] at h
  exact dark_of_ite (by decide) h

/-- CLEAR does not make the output DARK at once (Table 2-3). -/
theorem OutputStage.clear_dark {o : OutputStage} (d : Nat) (h : (o.clear d).state = .dark) : o.state = .dark := by
  rw [OutputStage.clear_eq] at h
  exact dark_of_ite (by decide) h

theorem ownTake_pagesLegal (hl : s.pagesLegal) : (ownTake p s).pagesLegal := by
  by_cases h : s.pages.loaded = none
  · rw [ownTake_noPage p h]; exact finish_pagesLegal _ _ _ hl
  · rw [ownTake_accepted p h]
    exact finish_pagesLegal _ _ _ (setOutput_pagesLegal (OutputStage.take_dark _) _ hl)

theorem ownClear_pagesLegal (hl : s.pagesLegal) : (ownClear p s).pagesLegal := by
  rw [ownClear_eq]
  exact finish_pagesLegal _ _ _ (setOutput_pagesLegal (OutputStage.clear_dark _) _ hl)

theorem ownPaletteWrite_pagesLegal (hl : s.pagesLegal) : (ownPaletteWrite p s).pagesLegal := by
  unfold ownPaletteWrite
  dsimp only
  split
  · exact finish_pagesLegal _ _ _ hl
  · exact finish_pagesLegal (s := s.setOutput _) _ _ _ hl

end Owners

theorem keepsPagesLegal_frameStart (order : List FramePart) : KeepsPagesLegal (.frameStart order) := fun s hl => by
  obtain ⟨t, ht, hf⟩ := frameStart_next order s
  refine ⟨t, ht, hf.pagesLegal (by simp) (by simp) ?_⟩
  rw [State.pagesLegal, enterFrame_framed_pages]
  split
  · exact PageTable.legal_endOutgoing hl _
  · rename_i hstays
    exact PageTable.legal_mono hl fun hdark => not_not.1 fun hne => hstays (Or.inr ⟨hne, hdark⟩)

theorem keepsPagesLegal_pendingCut : KeepsPagesLegal .pendingCut := fun s hl => by
  cases hc : s.output.cut with
  | none => exact ⟨s, by simp only [exec, execPendingCut, hc], hl⟩
  | some c =>
    by_cases ha : FramePart.output ∈ s.ahead
    · exact ⟨s, by simp only [exec, execPendingCut, hc, (isAhead_iff s _).2 ha, if_true], hl⟩
    · obtain ⟨enable, drop, hout⟩ := enterFrame_outputFrame_output s
      refine ⟨_, pendingCut_acts hc ha, (frame_notifyOutput _ _).pagesLegal (by simp) (by simp) ?_⟩
      rw [State.pagesLegal, State.markAhead_pages, State.markAhead_output, enterFrame_outputFrame_pages, hout]
      split
      · exact PageTable.legal_endOutgoing hl _
      · rename_i hstays
        exact PageTable.legal_mono hl fun hdark => not_not.1 fun hne => hstays ⟨hdark, hne⟩

theorem keepsPagesLegal_panicActs : KeepsPagesLegal .panicActs := fun s hl => by
  by_cases h : s.studio.holds .panic = true
  · refine ⟨_, panicActs_acts h, finish_pagesLegal _ _ _ ((frame_notifyOutput _ _).pagesLegal (by simp) (by simp) ?_)⟩
    rw [State.pagesLegal, panicked_pages]
    exact PageTable.legal_endOutgoing hl _
  · exact ⟨s, congrArg Host.Outcome.next (if_neg h), hl⟩

theorem keepsPagesLegal (c : Instr) : KeepsPagesLegal c := by
  cases c with
  | powerOnReset high => exact fun s _ => ⟨_, rfl, PageTable.reset_legal _⟩
  | frameStart order => exact keepsPagesLegal_frameStart order
  | pendingCut => exact keepsPagesLegal_pendingCut
  | panicActs => exact keepsPagesLegal_panicActs
  | pageDefine p => exact keepsPagesLegal_packet (fun _ => rfl) fun _ => ownPageDefine_pagesLegal p
  | pageDelete p => exact keepsPagesLegal_packet (fun _ => rfl) fun _ => ownPageDelete_pagesLegal p
  | load p => exact keepsPagesLegal_packet (fun _ => rfl) fun _ => ownLoad_pagesLegal p
  | unload p => exact keepsPagesLegal_packet (fun _ => rfl) fun _ => ownUnload_pagesLegal p
  | take p => exact keepsPagesLegal_packet (fun _ => rfl) fun _ => ownTake_pagesLegal p
  | clear p => exact keepsPagesLegal_packet (fun _ => rfl) fun _ => ownClear_pagesLegal p
  | paletteWrite p => exact keepsPagesLegal_packet (fun _ => rfl) fun _ => ownPaletteWrite_pagesLegal p
  | _ => exact keepsPagesLegal_untouched (by simp [touched, packetBlocks]) (by simp [touched, packetBlocks])

/-! ### Every step keeps the page table's states -/

/-- With an empty queue a step moves the clock and draws (log 1, log 9). -/
theorem tick_pagesLegal {s : State} (hl : s.pagesLegal) : s.tick.pagesLegal := by
  have hdrawn : s.drawOne.pagesLegal := (frame_drawOne s).pagesLegal (by simp) (by simp) hl
  unfold State.tick State.passPeriod
  split
  · exact (frame_advanceTo _ _).pagesLegal (by simp) (by simp) hdrawn
  · exact hdrawn

/-- Settles O22: the tick, and each command on the state with the queue's rest. -/
theorem pagesLegalKept : Obligations.PagesLegalKept := by
  intro s t hl hstep
  cases hq : s.pending with
  | nil =>
    simp only [step, hq, Host.Outcome.next.injEq] at hstep
    exact hstep ▸ tick_pagesLegal hl
  | cons c rest =>
    simp only [step, hq] at hstep
    obtain ⟨u, hu, hkept⟩ := keepsPagesLegal c (s.withPending rest) hl
    obtain rfl : u = t := by simpa only [hu, Host.Outcome.next.injEq] using hstep
    exact hkept

end Sys2Proof.Machine
end

section
/-! Both mappings of an accepted viewport (O23). -/

namespace Sys2Proof.Machine

/-! ### One axis of a mapping (R39, R40) -/

/-- The chart point at the centre of one of `pixels` pixels lies within the `units` chart units that they show (R40). -/
theorem chartOffset_lt {pixel pixels units : Nat} (hp : pixel < pixels) (hu : 0 < units) :
    (pixel * 2 + 1) * units / (2 * pixels) < units := by
  have hcentre : (pixel * 2 + 1) * units < 2 * pixels * units := Nat.mul_lt_mul_of_pos_right (by omega) hu
  exact Nat.div_lt_of_lt_mul hcentre

/-- A chart point within the `units` chart units lies on one of the `pixels` pixels that show them (R39). -/
theorem screenOffset_bounds {unit units pixels : Int} (h0 : 0 ≤ unit) (hu : unit < units) (hp : 0 < pixels) :
    0 ≤ unit * pixels / units ∧ unit * pixels / units < pixels := by
  have hunits : 0 < units := h0.trans_lt hu
  refine ⟨Int.ediv_nonneg (Int.mul_nonneg h0 hp.le) hunits.le, Int.ediv_lt_of_lt_mul hunits ?_⟩
  rw [mul_comm pixels]
  exact Int.mul_lt_mul_of_pos_right hu hp

/-! ### The windows of an accepted viewport (R34) -/

section Windows

variable {v : Viewport}

theorem Viewport.accepted_pos (h : v.accepted = true) : 0 < v.cw ∧ 0 < v.ch ∧ 0 < v.sw ∧ 0 < v.sh := by
  simp only [Viewport.accepted, Viewport.inPlane, Bool.and_eq_true, decide_eq_true_eq] at h
  omega

theorem Viewport.toChart_inside (h : v.accepted = true) {px py : Nat} (hx0 : v.sx0 ≤ px) (hx : px < v.sx0 + v.sw)
    (hy0 : v.sy0 ≤ py) (hy : py < v.sy0 + v.sh) :
    v.cx0 ≤ (v.toChart px py).1 ∧ (v.toChart px py).1 < v.cx0 + v.cw ∧
      v.cy0 ≤ (v.toChart px py).2 ∧ (v.toChart px py).2 < v.cy0 + v.ch := by
  obtain ⟨hcw, hch, -, -⟩ := Viewport.accepted_pos h
  have hcx := chartOffset_lt (pixel := px - v.sx0) (pixels := v.sw) (by omega) hcw
  have hcy := chartOffset_lt (pixel := py - v.sy0) (pixels := v.sh) (by omega) hch
  exact ⟨Nat.le_add_right _ _, Nat.add_lt_add_left hcx _, Nat.le_add_right _ _, Nat.add_lt_add_left hcy _⟩

theorem Viewport.inWindow_iff {x y : Int} :
    v.inWindow x y = true ↔
      (v.sx0 : Int) ≤ x ∧ x < (v.sx0 : Int) + v.sw ∧ (v.sy0 : Int) ≤ y ∧ y < (v.sy0 : Int) + v.sh := by
  simp only [Viewport.inWindow, Bool.and_eq_true, decide_eq_true_eq, and_assoc]

theorem Viewport.toScreen_inside (h : v.accepted = true) {cx cy : Nat} (hx0 : v.cx0 ≤ cx) (hx : cx < v.cx0 + v.cw)
    (hy0 : v.cy0 ≤ cy) (hy : cy < v.cy0 + v.ch) :
    v.inWindow (v.toScreen cx cy).1 (v.toScreen cx cy).2 = true := by
  obtain ⟨-, -, hsw, hsh⟩ := Viewport.accepted_pos h
  obtain ⟨hsx0, hsx⟩ := screenOffset_bounds (unit := (cx : Int) - v.cx0) (units := v.cw) (pixels := v.sw) (by omega)
    (by omega) (by omega)
  obtain ⟨hsy0, hsy⟩ := screenOffset_bounds (unit := (cy : Int) - v.cy0) (units := v.ch) (pixels := v.sh) (by omega)
    (by omega) (by omega)
  exact Viewport.inWindow_iff.2 ⟨le_add_of_nonneg_right hsx0, add_lt_add_right hsx _, le_add_of_nonneg_right hsy0,
    add_lt_add_right hsy _⟩

end Windows

/-- Settles O23, axis by axis. -/
theorem viewportMapsStayInside : Obligations.ViewportMapsStayInside := fun _ h =>
  ⟨fun _ _ => Viewport.toChart_inside h, fun _ _ => Viewport.toScreen_inside h⟩

end Sys2Proof.Machine
end

section
/-! The render controller at a frame start (O42). -/

namespace Sys2Proof.Machine

/-! ### The swap (R110) -/

section Swap

variable {r : Render}

theorem Render.hasReady_iff : r.hasReady = true ↔ ∃ w, (r.buffer w).role = .ready := by
  unfold Render.hasReady
  rw [Bool.or_eq_true, beq_iff_eq, beq_iff_eq]
  constructor
  · rintro (h | h)
    · exact ⟨.a, h⟩
    · exact ⟨.b, h⟩
  · rintro ⟨w, h⟩
    cases w with
    | a => exact Or.inl h
    | b => exact Or.inr h

theorem Render.swap_noReady (h : r.hasReady = false) : r.swap = r := by
  unfold Render.swap
  rw [h, if_neg Bool.false_ne_true]

theorem Render.swap_ready (h : r.hasReady = true) (w : BufferId) :
    r.swap.buffer w = { r.buffer w with role := (r.buffer w).role.swapped } := by
  unfold Render.swap
  rw [if_pos h]
  cases w <;> rfl

/-- Only the roles are swapped (R110). -/
theorem Render.swap_buffer (w : BufferId) :
    (r.swap.buffer w).tag = (r.buffer w).tag ∧ (r.swap.buffer w).pixels = (r.buffer w).pixels := by
  cases h : r.hasReady with
  | false => rw [Render.swap_noReady h]; exact ⟨rfl, rfl⟩
  | true => rw [Render.swap_ready h]; exact ⟨rfl, rfl⟩

@[simp] theorem Render.swap_job : r.swap.job = r.job := by unfold Render.swap; split <;> rfl
@[simp] theorem Render.swap_late : r.swap.late = r.late := by unfold Render.swap; split <;> rfl
@[simp] theorem Render.swap_newlyLoaded : r.swap.newlyLoaded = r.newlyLoaded := by unfold Render.swap; split <;> rfl

/-- A READY buffer becomes FRONT (R110). -/
theorem Render.swap_role_ready {w : BufferId} (h : (r.buffer w).role = .ready) : (r.swap.buffer w).role = .front := by
  rw [Render.swap_ready (Render.hasReady_iff.2 ⟨w, h⟩), h]
  rfl

/-- The former front buffer becomes FREE (R110). -/
theorem Render.swap_role_front {w : BufferId} (hr : r.hasReady = true) (h : (r.buffer w).role = .front) :
    (r.swap.buffer w).role = .free := by
  rw [Render.swap_ready hr, h]
  rfl

end Swap

/-! ### The buffer that a job starts into (R109, R111) -/

section Free

variable {r : Render}

theorem Render.freeBuffer_free {which : BufferId} (h : r.freeBuffer = some which) : (r.buffer which).role = .free := by
  unfold Render.freeBuffer at h
  split at h
  · cases h; assumption
  · split at h
    · cases h; assumption
    · cases h

/-- No job is in flight while a buffer waits READY (R111). -/
theorem Render.job_of_hasReady (hl : r.legal) (h : r.hasReady = true) : r.job = none := by
  obtain ⟨-, -, -, -, hready⟩ := hl
  by_contra hj
  rw [hready (Option.isSome_iff_ne_none.2 hj)] at h
  exact nomatch h

/-- With no job in flight no buffer is RENDERING (R109). -/
theorem Render.not_rendering (hl : r.legal) (hj : r.job = none) (w : BufferId) : (r.buffer w).role ≠ .rendering := by
  obtain ⟨-, -, ha, hb, -⟩ := hl
  have hnone : ∀ w, r.rendering w = false := fun w => by rw [Render.rendering, hj]
  cases w with
  | a => exact fun h => Bool.false_ne_true ((hnone .a).symm.trans (ha.1 h))
  | b => exact fun h => Bool.false_ne_true ((hnone .b).symm.trans (hb.1 h))

/-- A frame start with a READY buffer frees the former front buffer, for a job to start into: the other is then FRONT (R110, R111). -/
theorem Render.swap_frees_front (hr : r.hasReady = true) {w : BufferId} (h : (r.buffer w).role = .front) :
    r.swap.freeBuffer = some w := by
  have hfree := Render.swap_role_front hr h
  cases w with
  | a => exact if_pos hfree
  | b =>
    obtain ⟨v, hv⟩ := Render.hasReady_iff.1 hr
    cases v with
    | a =>
      have hfront := Render.swap_role_ready hv
      have hnot : r.swap.bufferA.role ≠ .free := by rw [show r.swap.bufferA.role = .front from hfront]; decide
      exact (if_neg hnot).trans (if_pos hfree)
    | b => exact absurd (h.symm.trans hv) (by decide)

theorem Render.exists_freeBuffer {w : BufferId} (h : (r.buffer w).role = .free) : ∃ which, r.freeBuffer = some which := by
  by_cases ha : r.bufferA.role = .free
  · exact ⟨.a, if_pos ha⟩
  · cases w with
    | a => exact absurd h ha
    | b => exact ⟨.b, (if_neg ha).trans (if_pos h)⟩

theorem BufferRole.swapped_free {role : BufferRole} (hready : role ≠ .ready) (hrendering : role ≠ .rendering) :
    role.swapped = .free := by
  cases role with
  | front => rfl
  | free => rfl
  | ready => exact absurd rfl hready
  | rendering => exact absurd rfl hrendering

theorem BufferRole.eq_free {role : BufferRole} (hfront : role ≠ .front) (hready : role ≠ .ready)
    (hrendering : role ≠ .rendering) : role = .free := by
  cases role with
  | front => exact absurd rfl hfront
  | free => rfl
  | ready => exact absurd rfl hready
  | rendering => exact absurd rfl hrendering

/-- With no job in flight a buffer is FREE after the swap: the one beside the READY buffer, or one that is not FRONT (R109, R111). -/
theorem Render.swap_freeBuffer (hl : r.legal) (hj : r.job = none) : ∃ which, r.swap.freeBuffer = some which := by
  have hrendering := Render.not_rendering hl hj
  obtain ⟨hfronts, hreadies, -, -, -⟩ := hl
  cases hr : r.hasReady with
  | false =>
    have hready (w : BufferId) : (r.buffer w).role ≠ .ready := fun h =>
      Bool.false_ne_true (hr.symm.trans (Render.hasReady_iff.2 ⟨w, h⟩))
    rw [Render.swap_noReady hr]
    by_cases ha : r.bufferA.role = .front
    · exact Render.exists_freeBuffer (w := .b)
        (BufferRole.eq_free (fun hb => hfronts ⟨ha, hb⟩) (hready .b) (hrendering .b))
    · exact Render.exists_freeBuffer (w := .a) (BufferRole.eq_free ha (hready .a) (hrendering .a))
  | true =>
    have hswapped {w : BufferId} (h : (r.buffer w).role ≠ .ready) : ∃ which, r.swap.freeBuffer = some which :=
      Render.exists_freeBuffer (w := w) (by rw [Render.swap_ready hr]; exact BufferRole.swapped_free h (hrendering w))
    obtain ⟨w, hw⟩ := Render.hasReady_iff.1 hr
    cases w with
    | a => exact hswapped (w := .b) fun hb => hreadies ⟨hw, hb⟩
    | b => exact hswapped (w := .a) fun ha => hreadies ⟨ha, hw⟩

end Free

/-! ### A job's start (R111) -/

/-- The controller with a job started into a buffer (R111). -/
def Render.start (r : Render) (which : BufferId) (j : Job) : Render :=
  { r.setBuffer which { r.buffer which with role := .rendering } with job := some j }

section Start

variable {r : Render} {which : BufferId} (j : Job)

theorem Render.start_same : (r.start which j).buffer which = { r.buffer which with role := .rendering } := by
  cases which <;> rfl

theorem Render.start_other {w : BufferId} (h : w ≠ which) : (r.start which j).buffer w = r.buffer w := by
  cases which with
  | a =>
    cases w with
    | a => exact absurd rfl h
    | b => rfl
  | b =>
    cases w with
    | a => rfl
    | b => exact absurd rfl h

theorem Render.start_job : (r.start which j).job = some j := rfl

/-- A job's start leaves tags and pixels. -/
theorem Render.start_buffer (w : BufferId) :
    ((r.start which j).buffer w).tag = (r.buffer w).tag ∧ ((r.start which j).buffer w).pixels = (r.buffer w).pixels := by
  by_cases h : w = which
  · subst h; rw [Render.start_same]; exact ⟨rfl, rfl⟩
  · rw [Render.start_other j h]; exact ⟨rfl, rfl⟩

/-- A job that starts into a FREE buffer leaves which buffer is FRONT. -/
theorem Render.start_role_front (hf : (r.buffer which).role = .free) (w : BufferId) :
    ((r.start which j).buffer w).role = .front ↔ (r.buffer w).role = .front := by
  by_cases h : w = which
  · subst h; simp [Render.start_same, hf]
  · rw [Render.start_other j h]

end Start

/-- Which buffer is FRONT, and its tag, are all that the front buffer's tag depends on. -/
theorem Render.frontTag_congr {r q : Render} (hrole : ∀ w, (q.buffer w).role = .front ↔ (r.buffer w).role = .front)
    (htag : ∀ w, (q.buffer w).tag = (r.buffer w).tag) : q.frontTag = r.frontTag := by
  have hbuffers (r : Render) : r.frontTag =
      if (r.buffer .a).role = .front then (r.buffer .a).tag
      else if (r.buffer .b).role = .front then (r.buffer .b).tag else none := by
    unfold Render.frontTag Render.front Render.buffer
    split_ifs <;> rfl
  rw [hbuffers, hbuffers]
  simp only [hrole, htag]

section StartJob

variable {s : State}

/-- No job starts with one in flight or with no page LOADED that has content (R111). -/
theorem startJob_stands (h : s.render.job ≠ none ∨ s.pages.loadedRecord = none) : s.startJob = s := by
  unfold State.startJob
  split
  next hj _ hrec _ => exact absurd h (not_or.2 ⟨not_not_intro hj, by simp [hrec]⟩)
  next => rfl

/-- A job starts into the FREE buffer, of the LOADED page (R111). -/
theorem startJob_starts {p : Fin 16} {rec : PageRecord} {which : BufferId} (hj : s.render.job = none)
    (hp : s.pages.loaded = some p) (hr : s.pages.loadedRecord = some rec) (hf : s.render.freeBuffer = some which) :
    s.startJob.render = s.render.start which (s.newJob which p rec) := by
  simp only [State.startJob, hj, hp, hr, hf, State.setRender_render, Render.start]

/-- What a job that starts carries of the frame and of the page (R111). -/
theorem State.newJob_begins (s : State) (which : BufferId) (p : Fin 16) (rec : PageRecord) :
    (s.newJob which p rec).frame = s.timing.frame ∧
      ((s.newJob which p rec).announce = true ↔ s.render.newlyLoaded = some p) := ⟨rfl, beq_iff_eq⟩

/-- What a job that starts captures of the timelines, the blink generators and the field sets (R111). -/
theorem State.newJob_captures (s : State) (which : BufferId) (p : Fin 16) (rec : PageRecord) :
    (∀ n : Fin 4, (s.newJob which p rec).timelines[n] = s.timelines[n].shown) ∧
      (∀ b : Fin 4, (s.newJob which p rec).phases[b] = s.blinks[b].on) ∧
      ∀ f : Fin 4, (s.newJob which p rec).captured[f] = if rec.names f = true then s.store.sets[f].capture else none := by
  simp [State.newJob]

theorem startJob_cases (s : State) :
    s.startJob.render = s.render ∨
      ∃ which j, s.render.freeBuffer = some which ∧ s.startJob.render = s.render.start which j := by
  unfold State.startJob
  split
  next which _ _ _ hf => exact Or.inr ⟨which, _, hf, rfl⟩
  next => exact Or.inl rfl

/-- The start of a job leaves tags and pixels. -/
theorem startJob_buffer (s : State) (w : BufferId) :
    (s.startJob.render.buffer w).tag = (s.render.buffer w).tag ∧
      (s.startJob.render.buffer w).pixels = (s.render.buffer w).pixels := by
  obtain hs | ⟨which, j, -, hs⟩ := startJob_cases s
  · rw [hs]; exact ⟨rfl, rfl⟩
  · rw [hs]; exact Render.start_buffer j w

/-- The start of a job leaves which buffer is FRONT. -/
theorem startJob_role_front (s : State) (w : BufferId) :
    (s.startJob.render.buffer w).role = .front ↔ (s.render.buffer w).role = .front := by
  obtain hs | ⟨which, j, hf, hs⟩ := startJob_cases s
  · rw [hs]
  · rw [hs]; exact Render.start_role_front j (Render.freeBuffer_free hf) w

theorem startJob_frontTag (s : State) : s.startJob.render.frontTag = s.render.frontTag :=
  Render.frontTag_congr (startJob_role_front s) fun w => (startJob_buffer s w).1

theorem startJob_late (s : State) : s.startJob.render.late = s.render.late := by
  obtain hs | ⟨which, j, -, hs⟩ := startJob_cases s
  · rw [hs]
  · rw [hs]; cases which <;> rfl

end StartJob

/-! ### The state in which the job of the frame start now due may start -/

section Due

variable (s : State)

/-- The controller then: swapped, its late flag judged after the swap (R110, R112). -/
theorem dueRender_render :
    s.enterFrame.atRender.render =
      { s.render.swap with late := s.render.swap.lateAfter s.render.hasReady s.pages.loaded.isSome } := by
  rw [atRender_render, (frame_enterFrame s).render_eq (by simp), (frame_enterFrame s).pages_eq (by simp)]

theorem dueRender_pages :
    s.enterFrame.atRender.pages.loaded = s.pages.loaded ∧ s.enterFrame.atRender.pages.pages = s.pages.pages := by
  have hpages := (frame_enterFrame s).pages_eq (by simp)
  rw [← framed_pages, framed_loaded, framed_contents, hpages]
  exact ⟨rfl, rfl⟩

theorem dueRender_loadedRecord : s.enterFrame.atRender.pages.loadedRecord = s.pages.loadedRecord := by
  obtain ⟨hloaded, hcontents⟩ := dueRender_pages s
  simp only [PageTable.loadedRecord, hloaded, hcontents]

/-- The frame number then is that of the frame that begins (R5). -/
theorem dueRender_frame : s.enterFrame.atRender.timing.frame = s.dueFrame := by
  rw [(frame_atRender _).timing_eq (by simp) (by simp), beforeRender_timing, ← framed_timing, framed_frame, enterFrame_frame]

/-- What a job captures is as the frame start leaves it (R111). -/
theorem dueRender_captured :
    s.enterFrame.atRender.timelines = s.enterFrame.framed.timelines ∧
      s.enterFrame.atRender.blinks = s.enterFrame.framed.blinks ∧
      s.enterFrame.atRender.store = s.enterFrame.framed.store := by
  rw [(frame_atRender _).timelines_eq (by simp), (frame_atRender _).blinks_eq (by simp),
    (frame_atRender _).store_eq (by simp), (frame_framed_after _).timelines_eq (by simp),
    (frame_framed_after _).blinks_eq (by simp), (frame_framed_after _).store_eq (by simp)]
  exact ⟨rfl, rfl, rfl⟩

end Due

/-! ### The controller after the frame start now due -/

section Framed

variable (s : State)

/-- The late flag is no buffer's. -/
theorem Render.setLate_buffer (r : Render) (late : Bool) (w : BufferId) :
    ({ r with late := late } : Render).buffer w = r.buffer w := by cases w <;> rfl

theorem dueRender_buffer (w : BufferId) : s.enterFrame.atRender.render.buffer w = s.render.swap.buffer w := by
  rw [dueRender_render, Render.setLate_buffer]

theorem dueRender_freeBuffer : s.enterFrame.atRender.render.freeBuffer = s.render.swap.freeBuffer := by
  rw [dueRender_render]
  rfl

theorem dueRender_job : s.enterFrame.atRender.render.job = s.render.job := by
  rw [dueRender_render, Render.swap_job]

theorem enterFrame_framed_role_front (w : BufferId) :
    (s.enterFrame.framed.render.buffer w).role = .front ↔ (s.render.swap.buffer w).role = .front := by
  rw [framed_render, startJob_role_front, dueRender_buffer]

/-- Tags and pixels stay through the frame start (R110). -/
theorem enterFrame_framed_buffer (w : BufferId) :
    (s.enterFrame.framed.render.buffer w).tag = (s.render.buffer w).tag ∧
      (s.enterFrame.framed.render.buffer w).pixels = (s.render.buffer w).pixels := by
  obtain ⟨htag, hpixels⟩ := startJob_buffer s.enterFrame.atRender w
  obtain ⟨htag', hpixels'⟩ := s.render.swap_buffer w
  rw [framed_render, htag, hpixels, dueRender_buffer]
  exact ⟨htag', hpixels'⟩

theorem enterFrame_framed_frontTag : s.enterFrame.framed.render.frontTag = s.render.swap.frontTag :=
  Render.frontTag_congr (enterFrame_framed_role_front s) fun w =>
    (enterFrame_framed_buffer s w).1.trans (s.render.swap_buffer w).1.symm

/-- The late flag, judged after the swap (R112). -/
theorem enterFrame_framed_late :
    s.enterFrame.framed.render.late = s.render.swap.lateAfter s.render.hasReady s.pages.loaded.isSome := by
  rw [framed_render, startJob_late, dueRender_render]

variable {s}

/-- With its job still in flight the renderer is late (R112). -/
theorem enterFrame_framed_late_job {j : Job} (h : s.render.job = some j) : s.enterFrame.framed.render.late = true := by
  rw [enterFrame_framed_late]
  simp only [Render.lateAfter, Render.swap_job, h]

/-- With none in flight a late renderer stays late until a swap, or until no page is LOADED (R112). -/
theorem enterFrame_framed_late_noJob (h : s.render.job = none) :
    s.enterFrame.framed.render.late = (s.render.late && !s.render.hasReady && s.pages.loaded.isSome) := by
  rw [enterFrame_framed_late]
  simp only [Render.lateAfter, Render.swap_job, h, Render.swap_late]

/-- No job starts: the one in flight stays, and the buffers are as the swap leaves them (R111, R112). -/
theorem enterFrame_framed_stands (h : s.render.job ≠ none ∨ s.pages.loadedRecord = none) :
    s.enterFrame.framed.render.job = s.render.job ∧
      ∀ w, s.enterFrame.framed.render.buffer w = s.render.swap.buffer w := by
  rw [framed_render, startJob_stands (by rwa [dueRender_job, dueRender_loadedRecord])]
  exact ⟨dueRender_job s, dueRender_buffer s⟩

/-- A job of the LOADED page starts into the buffer that the swap leaves FREE (R111). -/
theorem enterFrame_framed_starts {p : Fin 16} {rec : PageRecord} {which : BufferId} (hj : s.render.job = none)
    (hp : s.pages.loaded = some p) (hr : s.pages.loadedRecord = some rec) (hf : s.render.swap.freeBuffer = some which) :
    s.enterFrame.framed.render = s.enterFrame.atRender.render.start which (s.enterFrame.atRender.newJob which p rec) := by
  rw [framed_render]
  exact startJob_starts (by rwa [dueRender_job]) (by rwa [(dueRender_pages s).1]) (by rwa [dueRender_loadedRecord])
    (by rwa [dueRender_freeBuffer])

theorem loadedRecord_isSome {t : PageTable} (h : t.loadedRecord.isSome = true) :
    ∃ p rec, t.loaded = some p ∧ t.loadedRecord = some rec := by
  obtain ⟨rec, hrec⟩ := Option.isSome_iff_exists.1 h
  cases hp : t.loaded with
  | none => simp [PageTable.loadedRecord, hp] at hrec
  | some p => exact ⟨p, rec, rfl, hrec⟩

/-- The former front buffer is FREE, or RENDERING at once where a job starts: it starts into that buffer (R110, R111). -/
theorem enterFrame_framed_former (hl : s.render.legal) (hr : s.render.hasReady = true) {w : BufferId}
    (h : (s.render.buffer w).role = .front) :
    (s.enterFrame.framed.render.buffer w).role = if s.pages.loadedRecord.isSome = true then .rendering else .free := by
  split
  next hsome =>
    obtain ⟨p, rec, hp, hrec⟩ := loadedRecord_isSome hsome
    rw [enterFrame_framed_starts (Render.job_of_hasReady hl hr) hp hrec (Render.swap_frees_front hr h), Render.start_same]
  next hnone =>
    rw [(enterFrame_framed_stands (Or.inr (by simpa using hnone))).2 w]
    exact Render.swap_role_front hr h

end Framed

/-- Settles O42: the swap, the pages, the notice, and the job in flight, absent or started. -/
theorem frameStartRunsTheRenderer : Obligations.FrameStartRunsTheRenderer := by
  intro order s hl
  obtain ⟨t, hexec, hf⟩ := frameStart_next order s
  have hrender : t.render = s.enterFrame.framed.render := hf.render_eq (by simp)
  have hpages : t.pages = s.enterFrame.framed.pages := hf.pages_eq (by simp)
  have houtput : t.output = s.enterFrame.framed.output := hf.output_eq (by simp) (by simp)
  have hentered : s.enterFrame.pages = s.pages := (frame_enterFrame s).pages_eq (by simp)
  have hready (w : BufferId) (h : (s.render.buffer w).role = .ready) : (t.render.buffer w).role = .front := by
    rw [hrender]
    exact (enterFrame_framed_role_front s w).2 (Render.swap_role_ready h)
  refine ⟨t, hexec, hready .a, hready .b, fun w hr h => ?former, fun w => ?buffers, fun hr => ?front, ?loaded, ?contents,
    ?outgoing, ?notices, fun j hj => ?inFlight, fun hj hp => ?noPage, fun p rec hj hp hrec => ?starts⟩
  case former => rw [hrender]; exact enterFrame_framed_former hl hr h
  case buffers => rw [hrender]; exact enterFrame_framed_buffer s w
  case front => rw [hrender, enterFrame_framed_frontTag, Render.swap_noReady hr]
  case loaded => rw [hpages, framed_loaded, hentered]
  case contents => rw [hpages, framed_contents, hentered]
  case outgoing =>
    rw [hpages, enterFrame_framed_pages, ← houtput, hrender, enterFrame_framed_frontTag]
    simp only [Option.isSome_iff_ne_none, apply_ite PageTable.outgoing]
  case notices =>
    rw [partNotices_render, hrender, enterFrame_framed_frontTag, Render.lateNotice, Render.swap_job, Render.swap_late]
    by_cases hrecovered : s.render.late = true ∧ s.render.hasReady = true
    · simp [hrecovered]
    · rw [if_neg (by simpa using hrecovered), if_neg hrecovered]
      cases s.render.job with
      | some j => cases s.render.late <;> rfl
      | none => cases s.render.late <;> cases s.pages.loaded <;> simp
  case inFlight =>
    rw [hrender, enterFrame_framed_late_job hj, (enterFrame_framed_stands (Or.inl (by simp [hj]))).1]
    exact ⟨hj, rfl⟩
  case noPage =>
    have hnone : s.pages.loadedRecord = none := by simp only [PageTable.loadedRecord, hp]
    rw [hrender, enterFrame_framed_late_noJob hj, (enterFrame_framed_stands (Or.inr hnone)).1, hp, Option.isSome_none,
      Bool.and_false]
    exact ⟨hj, rfl⟩
  case starts =>
    have hloaded : s.pages.loadedRecord = some rec := by simp only [PageTable.loadedRecord, hp, hrec]
    obtain ⟨which, hfree⟩ := Render.swap_freeBuffer hl hj
    have hstart := enterFrame_framed_starts hj hp hloaded hfree
    obtain ⟨htimelines, hblinks, hstore⟩ := dueRender_captured s
    obtain ⟨hframe, hannounce⟩ := s.enterFrame.atRender.newJob_begins which p rec
    obtain ⟨hshown, hphases, hcaptured⟩ := s.enterFrame.atRender.newJob_captures which p rec
    rw [dueRender_frame] at hframe
    rw [dueRender_render, Render.swap_newlyLoaded] at hannounce
    rw [htimelines, ← hf.timelines_eq (by simp)] at hshown
    rw [hblinks, ← hf.blinks_eq (by simp)] at hphases
    rw [hstore, ← hf.store_eq (by simp)] at hcaptured
    have hjob : t.render.job = some (s.enterFrame.atRender.newJob which p rec) := by
      rw [hrender, hstart, Render.start_job]
    refine ⟨?late, _, hjob, rfl, rfl, hframe, rfl, rfl, rfl, rfl, hannounce, hshown, hphases, hcaptured, ?buffer⟩
    case late =>
      rw [hrender, enterFrame_framed_late_noJob hj, hp, Option.isSome_some, Bool.and_true]
    case buffer =>
      rw [hrender, hstart]
      exact congrArg FrameBuffer.role (Render.start_same _)

end Sys2Proof.Machine
end

section
/-! Stored page records and their bytes (O20): the bytes of each field, and reading them again. -/

namespace Sys2Proof.Machine

/-! ### Fields and their bytes -/

theorem byteOf_toNat {n : Nat} (h : n < 256) : (byteOf n).toNat = n := by
  rw [byteOf, BitVec.toNat_ofNat, Nat.mod_eq_of_lt h]

theorem beNat_bytes2 {n : Nat} (h : n < 65536) : beNat (bytes2 n) = n := by
  simp only [bytes2, beNat, byteOf, List.foldl_cons, List.foldl_nil, BitVec.toNat_ofNat]
  omega

theorem beNat_bytes3 {n : Nat} (h : n < 16777216) : beNat (bytes3 n) = n := by
  simp only [bytes3, beNat, byteOf, List.foldl_cons, List.foldl_nil, BitVec.toNat_ofNat]
  omega

/-- A signed field of two bytes holds -32768..32767. -/
theorem toInt_beNat_signed2 {n : Int} (h0 : -32768 ≤ n) (h1 : n < 32768) :
    (BitVec.ofNat 16 (beNat (signed2 n))).toInt = n := by
  rw [signed2, beNat_bytes2 (BitVec.isLt _), BitVec.ofNat_toNat, BitVec.setWidth_eq]
  exact BitVec.toInt_ofInt_eq_self (by decide) (by omega) (by omega)

/-- A run of bytes carries a number below 256 to the power of its length. -/
theorem beNat_lt (bytes : List Byte) : beNat bytes < 256 ^ bytes.length := by
  have key (bytes : List Byte) (acc : Nat) :
      bytes.foldl (fun acc b => 256 * acc + b.toNat) acc < (acc + 1) * 256 ^ bytes.length := by
    induction bytes generalizing acc with
    | nil => simp
    | cons b rest ih =>
      have hb := b.isLt
      calc (b :: rest).foldl (fun acc b => 256 * acc + b.toNat) acc
          < (256 * acc + b.toNat + 1) * 256 ^ rest.length := ih _
        _ ≤ (256 * (acc + 1)) * 256 ^ rest.length := Nat.mul_le_mul_right _ (by omega)
        _ = (acc + 1) * 256 ^ (b :: rest).length := by rw [List.length_cons, pow_succ]; ring
  simpa [beNat] using key bytes 0

theorem fieldNat_lt (bytes : List Byte) (off n : Nat) : fieldNat bytes off n < 256 ^ n :=
  (beNat_lt _).trans_le (Nat.pow_le_pow_right (by decide) (List.length_take_le _ _))

theorem fieldFlag_flagByte {bytes : List Byte} {off : Nat} {b : Bool} (h : fieldByte bytes off = flagByte b) :
    fieldFlag bytes off = b := by
  rw [fieldFlag, h]
  cases b <;> rfl

/-! ### Indices, colours and clamped magnitudes (R2, R186) -/

theorem colourOf_byteOf {n : Nat} (h : n < 32) : colourOf (byteOf n) = some n := by
  rw [colourOf, byteOf_toNat (by omega), if_pos h]

theorem colourOf_lt {b : Byte} {n : Nat} (h : colourOf b = some n) : n < 32 := by
  unfold colourOf at h
  split at h
  · cases h; assumption
  · cases h

theorem optIndexOf_blinkByte (b : Option (Fin 4)) : optIndexOf 4 (blinkByte b) = some b := by
  cases b with
  | none => rfl
  | some i => revert i; decide

theorem optIndexOf_timelineByte (t : Fin 4) : optIndexOf 4 (byteOf t.val) = some (some t) := optIndexOf_blinkByte (some t)

theorem clampNat_bounds (x : Nat) {lo hi : Nat} (h : lo ≤ hi) : lo ≤ clampNat x lo hi ∧ clampNat x lo hi ≤ hi := by
  unfold clampNat; omega

theorem clampInt_bounds (x : Int) {lo hi : Int} (h : lo ≤ hi) : lo ≤ clampInt x lo hi ∧ clampInt x lo hi ≤ hi := by
  unfold clampInt; omega

theorem clampInt_eq {x lo hi : Int} (h0 : lo ≤ x) (h1 : x ≤ hi) : clampInt x lo hi = x := by
  unfold clampInt; omega

theorem clampNat_eq {x lo hi : Nat} (h0 : lo ≤ x) (h1 : x ≤ hi) : clampNat x lo hi = x :=
  (clampNat_eq_iff (h0.trans h1)).2 ⟨h0, h1⟩

/-! ### The ranges of stored records (R34, R36) -/

/-- The range of a fixed slot (R36). -/
def SlotSource.stored : SlotSource → Prop
  | .timeline _ => True
  | .fixed n => n ≤ 24

/-- The ranges of a stored layer record (Table 3-2). -/
def Layer.stored : Layer → Prop
  | .coast c => c.land < 32 ∧ c.line < 32 ∧ 1 ≤ c.width ∧ c.width ≤ 4
  | .tideShade c => c.source.stored ∧ c.first < 32 ∧ -1000 ≤ c.base ∧ c.base ≤ 2000 ∧ 1 ≤ c.step ∧ c.step ≤ 500
  | .streamArrows c =>
    c.source.stored ∧ c.arrow < 32 ∧ c.slack < 32 ∧ 1 ≤ c.gain ∧ c.gain ≤ 255 ∧ c.threshold < 256 ∧ 1 ≤ c.stride ∧
      c.stride ≤ 8
  | .windBarbs c => c.source.stored ∧ c.barb < 32 ∧ 1 ≤ c.stride ∧ c.stride ≤ 8
  | .symbols _ => True

/-- The widths of the fields of a viewport (Table 12-3). -/
def Viewport.stored (v : Viewport) : Prop :=
  (v.cx0 < 65536 ∧ v.cy0 < 65536 ∧ v.cw < 16777216 ∧ v.ch < 16777216) ∧
    v.sx0 < 65536 ∧ v.sy0 < 65536 ∧ v.sw < 65536 ∧ v.sh < 65536

/-- The ranges of a stored page record (Table 3-1). -/
def PageRecord.stored (r : PageRecord) : Prop :=
  r.view.stored ∧ r.sea < 32 ∧ 1 ≤ r.layers.length ∧ r.layers.length ≤ 8 ∧ ∀ l ∈ r.layers, l.stored

/-! ### What a parser accepts is in range -/

section Parsed

variable {bytes : List Byte} {l : Layer} {adjusted : Bool}

theorem parseSource_stored {src : SlotSource} (h : parseSource bytes = some src) : src.stored := by
  unfold parseSource at h
  split at h
  · cases h
  · cases h; trivial
  · split at h
    · cases h; assumption
    · cases h

theorem parseCoast_stored (h : parseCoast bytes = some (l, adjusted)) : l.stored := by
  unfold parseCoast at h
  split at h
  next hland hline =>
    cases h
    exact ⟨colourOf_lt hland, colourOf_lt hline, clampNat_bounds _ (by decide)⟩
  next => cases h

theorem parseShade_stored (h : parseShade bytes = some (l, adjusted)) : l.stored := by
  unfold parseShade at h
  split at h
  next _ hsrc hfirst =>
    cases h
    obtain ⟨hbase, hbase'⟩ := clampInt_bounds (fieldInt bytes 7) (lo := -1000) (hi := 2000) (by decide)
    exact ⟨parseSource_stored hsrc, colourOf_lt hfirst, hbase, hbase', clampNat_bounds _ (by decide)⟩
  next => cases h

theorem parseArrows_stored (h : parseArrows bytes = some (l, adjusted)) : l.stored := by
  unfold parseArrows at h
  split at h
  next _ hsrc harrow hslack _ =>
    cases h
    obtain ⟨hgain, hgain'⟩ := clampNat_bounds (fieldNat bytes 11 1) (lo := 1) (hi := 255) (by decide)
    exact ⟨parseSource_stored hsrc, colourOf_lt harrow, colourOf_lt hslack, hgain, hgain', fieldNat_lt bytes 12 1,
      clampNat_bounds _ (by decide)⟩
  next => cases h

theorem parseBarbs_stored (h : parseBarbs bytes = some (l, adjusted)) : l.stored := by
  unfold parseBarbs at h
  split at h
  next _ hsrc hbarb _ =>
    cases h
    exact ⟨parseSource_stored hsrc, colourOf_lt hbarb, clampNat_bounds _ (by decide)⟩
  next => cases h

theorem parseSymbols_stored (h : parseSymbols bytes = some (l, adjusted)) : l.stored := by
  unfold parseSymbols at h
  split at h
  · cases h; trivial
  · cases h

theorem parseLayer_stored (h : parseLayer bytes = some (l, adjusted)) : l.stored := by
  unfold parseLayer at h
  split at h
  · exact parseCoast_stored h
  · exact parseShade_stored h
  · exact parseArrows_stored h
  · exact parseBarbs_stored h
  · exact parseSymbols_stored h
  · cases h

end Parsed

/-! ### Reading a layer record's bytes again (R182, R186) -/

theorem parseSource_sourceBytes {bytes : List Byte} {src : SlotSource}
    (hb : [fieldByte bytes 2, fieldByte bytes 3] = sourceBytes src) (hs : src.stored) : parseSource bytes = some src := by
  cases src with
  | timeline t =>
    obtain ⟨htimeline, -⟩ := List.cons_eq_cons.1 hb
    rw [parseSource, htimeline, optIndexOf_timelineByte]
  | fixed n =>
    obtain ⟨habsent, hrest⟩ := List.cons_eq_cons.1 hb
    obtain ⟨hfixed, -⟩ := List.cons_eq_cons.1 hrest
    have hn : n ≤ 24 := hs
    rw [parseSource, habsent, hfixed, byteOf_toNat (by omega), if_pos hn]
    rfl

theorem fieldNat_byteOf {bytes : List Byte} {off n : Nat} (hb : fieldByte bytes off = byteOf n) (hn : n < 256) :
    fieldNat bytes off 1 = n := by
  rw [fieldNat_one, hb, byteOf_toNat hn]

theorem parseCoast_layerBytes {c : CoastLayer} (h : (Layer.coast c).stored) :
    parseCoast (layerBytes (.coast c)) = some (.coast c, false) := by
  obtain ⟨hland, hline, hwidth, hwidth'⟩ := h
  have land : fieldByte (layerBytes (.coast c)) 4 = byteOf c.land := rfl
  have line : fieldByte (layerBytes (.coast c)) 5 = byteOf c.line := rfl
  have width : fieldNat (layerBytes (.coast c)) 6 1 = c.width := fieldNat_byteOf rfl (by omega)
  simp only [parseCoast, land, line, width, colourOf_byteOf hland, colourOf_byteOf hline, clampNat_eq hwidth hwidth',
    bne_self_eq_false]

theorem shadeBytes_fields (c : ShadeLayer) :
    fieldByte (layerBytes (.tideShade c)) 1 = byteOf c.fieldSet.val ∧
      [fieldByte (layerBytes (.tideShade c)) 2, fieldByte (layerBytes (.tideShade c)) 3] = sourceBytes c.source ∧
      fieldByte (layerBytes (.tideShade c)) 4 = byteOf c.first ∧
      fieldBytes (layerBytes (.tideShade c)) 7 2 = signed2 c.base ∧
      fieldBytes (layerBytes (.tideShade c)) 9 2 = bytes2 c.step := by
  obtain ⟨_, src, _⟩ := c
  cases src <;> exact ⟨rfl, rfl, rfl, rfl, rfl⟩

theorem parseShade_layerBytes {c : ShadeLayer} (h : (Layer.tideShade c).stored) :
    parseShade (layerBytes (.tideShade c)) = some (.tideShade c, false) := by
  obtain ⟨hsource, hfirst, hbase, hbase', hstep, hstep'⟩ := h
  obtain ⟨field, source, first, base, step⟩ := shadeBytes_fields c
  have baseRead : fieldInt (layerBytes (.tideShade c)) 7 = c.base := by
    rw [fieldInt, fieldNat, base]
    exact toInt_beNat_signed2 (by omega) (by omega)
  have stepRead : fieldNat (layerBytes (.tideShade c)) 9 2 = c.step := by
    rw [fieldNat, step]
    exact beNat_bytes2 (by omega)
  simp only [parseShade, indexOf_eq_some (fieldNat_byteOf field (by omega)), parseSource_sourceBytes source hsource, first,
    baseRead, stepRead, colourOf_byteOf hfirst, clampInt_eq hbase hbase', clampNat_eq hstep hstep', bne_self_eq_false,
    Bool.or_self]

theorem arrowBytes_fields (c : ArrowLayer) :
    fieldByte (layerBytes (.streamArrows c)) 1 = byteOf c.fieldSet.val ∧
      [fieldByte (layerBytes (.streamArrows c)) 2, fieldByte (layerBytes (.streamArrows c)) 3] = sourceBytes c.source ∧
      fieldByte (layerBytes (.streamArrows c)) 4 = byteOf c.arrow ∧
      fieldByte (layerBytes (.streamArrows c)) 5 = byteOf c.slack ∧
      fieldByte (layerBytes (.streamArrows c)) 11 = byteOf c.gain ∧
      fieldByte (layerBytes (.streamArrows c)) 12 = byteOf c.threshold ∧
      fieldByte (layerBytes (.streamArrows c)) 13 = byteOf c.stride ∧
      fieldByte (layerBytes (.streamArrows c)) 14 = flagByte c.suppress ∧
      fieldByte (layerBytes (.streamArrows c)) 15 = blinkByte c.blink := by
  obtain ⟨_, src, _⟩ := c
  cases src <;> exact ⟨rfl, rfl, rfl, rfl, rfl, rfl, rfl, rfl, rfl⟩

theorem parseArrows_layerBytes {c : ArrowLayer} (h : (Layer.streamArrows c).stored) :
    parseArrows (layerBytes (.streamArrows c)) = some (.streamArrows c, false) := by
  obtain ⟨hsource, harrow, hslack, hgain, hgain', hthreshold, hstride, hstride'⟩ := h
  obtain ⟨field, source, arrow, slack, gain, threshold, stride, suppress, blink⟩ := arrowBytes_fields c
  simp only [parseArrows, indexOf_eq_some (fieldNat_byteOf field (by omega)), parseSource_sourceBytes source hsource, arrow,
    slack, fieldNat_byteOf gain (by omega), fieldNat_byteOf threshold hthreshold, fieldNat_byteOf stride (by omega),
    fieldFlag_flagByte suppress, blink, colourOf_byteOf harrow, colourOf_byteOf hslack, optIndexOf_blinkByte,
    clampNat_eq hgain hgain', clampNat_eq hstride hstride', bne_self_eq_false, Bool.or_self]

theorem barbBytes_fields (c : BarbLayer) :
    fieldByte (layerBytes (.windBarbs c)) 1 = byteOf c.fieldSet.val ∧
      [fieldByte (layerBytes (.windBarbs c)) 2, fieldByte (layerBytes (.windBarbs c)) 3] = sourceBytes c.source ∧
      fieldByte (layerBytes (.windBarbs c)) 4 = byteOf c.barb ∧
      fieldByte (layerBytes (.windBarbs c)) 13 = byteOf c.stride ∧
      fieldByte (layerBytes (.windBarbs c)) 14 = flagByte c.suppress ∧
      fieldByte (layerBytes (.windBarbs c)) 15 = blinkByte c.blink := by
  obtain ⟨_, src, _⟩ := c
  cases src <;> exact ⟨rfl, rfl, rfl, rfl, rfl, rfl⟩

theorem parseBarbs_layerBytes {c : BarbLayer} (h : (Layer.windBarbs c).stored) :
    parseBarbs (layerBytes (.windBarbs c)) = some (.windBarbs c, false) := by
  obtain ⟨hsource, hbarb, hstride, hstride'⟩ := h
  obtain ⟨field, source, barb, stride, suppress, blink⟩ := barbBytes_fields c
  simp only [parseBarbs, indexOf_eq_some (fieldNat_byteOf field (by omega)), parseSource_sourceBytes source hsource, barb,
    fieldNat_byteOf stride (by omega), fieldFlag_flagByte suppress, blink, colourOf_byteOf hbarb, optIndexOf_blinkByte,
    clampNat_eq hstride hstride', bne_self_eq_false]

theorem parseSymbols_layerBytes (list : Fin 8) :
    parseSymbols (layerBytes (.symbols list)) = some (.symbols list, false) := by
  have index : fieldNat (layerBytes (.symbols list)) 16 1 = list.val := fieldNat_byteOf rfl (by omega)
  simp only [parseSymbols, indexOf_eq_some index]

/-- The bytes of a stored layer record are a record of the same layer, with nothing to clamp (R36, R182). -/
theorem parseLayer_layerBytes {l : Layer} (h : l.stored) : parseLayer (layerBytes l) = some (l, false) := by
  cases l with
  | coast c => exact parseCoast_layerBytes h
  | tideShade c => exact parseShade_layerBytes h
  | streamArrows c => exact parseArrows_layerBytes h
  | windBarbs c => exact parseBarbs_layerBytes h
  | symbols list => exact parseSymbols_layerBytes list

/-! ### The records of a page (R34) -/

section Records

variable {α β : Type}

theorem length_layerBytes (l : Layer) : (layerBytes l).length = 17 := by
  cases l with
  | coast c => rfl
  | tideShade c => obtain ⟨_, src, _⟩ := c; cases src <;> rfl
  | streamArrows c => obtain ⟨_, src, _⟩ := c; cases src <;> rfl
  | windBarbs c => obtain ⟨_, src, _⟩ := c; cases src <;> rfl
  | symbols list => rfl

theorem length_records (n count : Nat) (bytes : List Byte) : (records n count bytes).length = count := by
  rw [records_eq_map, List.length_map, List.length_range]

/-- Records of one length, one behind the other, are read one by one. -/
theorem records_flatMap {n : Nat} {f : α → List Byte} (hf : ∀ x, (f x).length = n) (xs : List α) :
    records n xs.length (xs.flatMap f) = xs.map f := by
  induction xs with
  | nil => rfl
  | cons x rest ih =>
    rw [List.length_cons, List.flatMap_cons, records, List.take_left' (hf x), List.drop_left' (hf x), ih, List.map_cons]

theorem parseAll_map {parse : List Byte → Option β} {f : α → List Byte} {g : α → β} {xs : List α}
    (h : ∀ x ∈ xs, parse (f x) = some (g x)) : parseAll parse (xs.map f) = some (xs.map g) := by
  induction xs with
  | nil => rfl
  | cons x rest ih =>
    rw [List.map_cons, parseAll, h x List.mem_cons_self, ih fun y hy => h y (List.mem_cons_of_mem x hy), List.map_cons]

/-- Parsing gives one value for each record, and each of them was parsed. -/
theorem parseAll_some {parse : List Byte → Option β} {rs : List (List Byte)} {xs : List β}
    (h : parseAll parse rs = some xs) : xs.length = rs.length ∧ ∀ x ∈ xs, ∃ r, parse r = some x := by
  induction rs generalizing xs with
  | nil =>
    cases h
    exact ⟨rfl, fun _ hx => nomatch hx⟩
  | cons r rest ih =>
    rw [parseAll] at h
    split at h
    next x ys hx hys =>
      cases h
      obtain ⟨hlength, hparsed⟩ := ih hys
      refine ⟨congrArg Nat.succ hlength, fun y hy => ?_⟩
      obtain rfl | hy := List.mem_cons.1 hy
      · exact ⟨r, hx⟩
      · exact hparsed y hy
    next => cases h

end Records

/-! ### The page record and its bytes (R34, R182) -/

theorem parseViewport_stored (bytes : List Byte) : (parseViewport bytes).stored :=
  ⟨⟨fieldNat_lt _ _ 2, fieldNat_lt _ _ 2, fieldNat_lt _ _ 3, fieldNat_lt _ _ 3⟩, fieldNat_lt _ _ 2, fieldNat_lt _ _ 2,
    fieldNat_lt _ _ 2, fieldNat_lt _ _ 2⟩

theorem parsePage_stored {bytes : List Byte} {rec : PageRecord} {adjusted : Bool}
    (h : parsePage bytes = some (rec, adjusted)) : rec.stored := by
  unfold parsePage at h
  dsimp only at h
  split at h
  next sea layers hsea hlayers =>
    split at h
    next hcount =>
      cases h
      obtain ⟨hlength, hparsed⟩ := parseAll_some hlayers
      rw [length_records] at hlength
      refine ⟨parseViewport_stored bytes, colourOf_lt hsea, ?_, ?_, fun l hl => ?_⟩
      · rw [List.length_map, hlength]; exact hcount.1
      · rw [List.length_map, hlength]; exact hcount.2
      · obtain ⟨⟨l', clamped⟩, hmem, rfl⟩ := List.mem_map.1 hl
        obtain ⟨r, hr⟩ := hparsed _ hmem
        exact parseLayer_stored hr
    next => cases h
  next => cases h

theorem parseViewport_pageBytes {rec : PageRecord} (h : rec.view.stored) : parseViewport (pageBytes rec) = rec.view := by
  obtain ⟨⟨hcx, hcy, hcw, hch⟩, hsx, hsy, hsw, hsh⟩ := h
  have fields : parseViewport (pageBytes rec) =
      ⟨beNat (bytes2 rec.view.cx0), beNat (bytes2 rec.view.cy0), beNat (bytes3 rec.view.cw), beNat (bytes3 rec.view.ch),
        beNat (bytes2 rec.view.sx0), beNat (bytes2 rec.view.sy0), beNat (bytes2 rec.view.sw),
        beNat (bytes2 rec.view.sh)⟩ := rfl
  rw [fields, beNat_bytes2 hcx, beNat_bytes2 hcy, beNat_bytes3 hcw, beNat_bytes3 hch, beNat_bytes2 hsx, beNat_bytes2 hsy,
    beNat_bytes2 hsw, beNat_bytes2 hsh]

/-- The bytes of a stored page record define the same page, with nothing to clamp (R182). -/
theorem parsePage_pageBytes {rec : PageRecord} (h : rec.stored) : parsePage (pageBytes rec) = some (rec, false) := by
  obtain ⟨hview, hsea, hfew, hmany, hlayers⟩ := h
  have sea : fieldByte (pageBytes rec) 18 = byteOf rec.sea := rfl
  have count : fieldNat (pageBytes rec) 19 1 = rec.layers.length := fieldNat_byteOf rfl (by omega)
  have rest : (pageBytes rec).drop 20 = rec.layers.flatMap layerBytes := rfl
  have parsed : parseAll parseLayer (rec.layers.map layerBytes) = some (rec.layers.map fun l => (l, false)) :=
    parseAll_map fun l hl => parseLayer_layerBytes (hlayers l hl)
  have same : (rec.layers.map fun l => (l, false)).map (·.1) = rec.layers := by
    rw [List.map_map]
    exact List.map_id _
  have unclamped : (rec.layers.map fun l => (l, false)).any (·.2) = false := by simp
  simp only [parsePage, sea, count, rest, colourOf_byteOf hsea, records_flatMap length_layerBytes, parsed,
    if_pos (And.intro hfew hmany), parseViewport_pageBytes hview, same, unclamped]

/-- Settles O20: what PAGE DEFINE parses is in range, and the bytes of a record in range are read back. -/
theorem storedPageReadsBack : Obligations.StoredPageReadsBack := fun _ _ _ h => parsePage_pageBytes (parsePage_stored h)

end Sys2Proof.Machine
end

section
/-! Invariants of the state that a few blocks alone bear on: how commands and steps that leave those blocks keep them. -/

namespace Sys2Proof.Machine

/-- Only the blocks of `rs` bear on the property. -/
def Reads (rs : List Block) (P : State → Prop) : Prop := ∀ s t, (∀ b ∈ rs, agree b s t) → P s → P t

/-- The command keeps the property. -/
def Keeps (P : State → Prop) (c : Instr) : Prop := ∀ s, P s → ∃ t, exec c s = .next t ∧ P t

section Keeping

variable {rs : List Block} {P : State → Prop}

/-- A change of blocks that the property does not read keeps it. -/
theorem Reads.framed (hP : Reads rs P) {bs : List Block} {s t : State} (hf : Frame bs s t) (hd : ∀ b ∈ rs, b ∉ bs)
    (h : P s) : P t := hP s t (fun b hb => hf b (hd b hb)) h

theorem keeps_untouched (hP : Reads rs P) {c : Instr} (hd : ∀ b ∈ rs, b ∉ touched c) : Keeps P c := fun s h => by
  obtain ⟨t, ht, hf⟩ := keepsOthers c s
  exact ⟨t, ht, hP.framed hf hd h⟩

/-- A packet command whose owner keeps the property: a packet that is not taken changes the packet's own blocks alone (R162). -/
theorem keeps_packet (hP : Reads rs P) {c : Instr} {k : Kind} {p : Packet} {own : Packet → State → State}
    (hd : ∀ b ∈ rs, b ∉ packetBlocks p) (hc : ∀ s, exec c s = .next (serve k p own s)) (h : ∀ s, P s → P (own p s)) :
    Keeps P c := fun s hs =>
  ⟨_, hc s, serve_cases (P := P) hs
    (fun st => hP.framed ((frame_arrive s p).trans ((frame_refuse _ k.code p st).mono (by simp [packetBlocks]))) hd hs)
    (h _ (hP.framed (frame_taken k s p) hd hs))⟩

/-- The blocks that a step on an empty queue may change (log 1, log 9). -/
abbrev tickBlocks : List Block := .clock :: .keyEnable :: drawBlocks

theorem frame_tick (s : State) : Frame tickBlocks s s.tick := by
  have hdrawn : Frame tickBlocks s s.drawOne := (frame_drawOne s).mono (by simp +contextual)
  unfold State.tick State.passPeriod
  split
  · exact hdrawn.trans ((frame_advanceTo _ _).mono (by simp))
  · exact hdrawn

theorem frame_withPending (s : State) (q : List Instr) : Frame [.queue] s (s.withPending q) := by
  intro b hb
  cases b with
  | port l => cases l <;> rfl
  | queue => simp at hb
  | keyEnable => exact ⟨rfl, rfl⟩
  | _ => rfl

/-- A property that every command keeps, and that a passing pixel period does not bear on, is kept by every step (log 1). -/
theorem step_keeps (hP : Reads rs P) (hd : ∀ b ∈ rs, b ∉ tickBlocks) (hq : Block.queue ∉ rs) (hc : ∀ c, Keeps P c)
    {s t : State} (h : P s) (hstep : step s = .next t) : P t := by
  cases hpending : s.pending with
  | nil =>
    simp only [step, hpending, Host.Outcome.next.injEq] at hstep
    exact hstep ▸ hP.framed (frame_tick s) hd h
  | cons c rest =>
    simp only [step, hpending] at hstep
    have hrest : P (s.withPending rest) :=
      hP.framed (frame_withPending s rest) (fun b hb he => hq (List.mem_singleton.1 he ▸ hb)) h
    obtain ⟨u, hu, hkept⟩ := hc c (s.withPending rest) hrest
    obtain rfl : u = t := by simpa only [hu, Host.Outcome.next.injEq] using hstep
    exact hkept

end Keeping

end Sys2Proof.Machine
end

section
/-! The flip of a field set, with FRAME_START and ahead of it (O27). -/

namespace Sys2Proof.Machine

/-! ### One field set (R58, R59) -/

section Set

variable {v : FieldSet} {second : Bool}

theorem FieldSet.flip_pending (h : v.findRole .pending = some second) :
    v.flip = (v.setBank second { v.bank second with role := .live }).setBank (!second)
      { v.bank (!second) with role := .staging, written := [] } := by
  simp only [FieldSet.flip, h]

theorem FieldSet.flip_noPending (h : v.findRole .pending = none) : v.flip = v := by
  simp only [FieldSet.flip, h]

/-- A flip makes the pending bank live and the other staging with an empty map (R59). -/
theorem FieldSet.flip_flipped (h : v.findRole .pending = some second) : v.flipped v.flip second := by
  rw [FieldSet.flip_pending h]
  cases second <;> exact ⟨rfl, rfl, rfl⟩

theorem FieldSet.liveNotice_pending (h : v.findRole .pending = some second) (f : Fin 4) :
    v.liveNotice f = [.bankLive f second] := by
  simp only [FieldSet.liveNotice, h]

end Set

/-! ### The conditions (R58) -/

/-- The timelines that the flip test of a field set reads (R58). -/
theorem PageTable.mem_flipTimelines {t : PageTable} {f n : Fin 4} :
    n ∈ t.flipTimelines f ↔
      ∃ r, t.loadedRecord = some r ∧ ∃ l ∈ r.layers, l.fieldSet = some f ∧ l.timeline = some n := by
  unfold PageTable.flipTimelines
  cases t.loadedRecord with
  | none => simp
  | some r => simp

/-- The flip happens at the frame start now due: its conditions hold, and no row has handled it yet (R58, log 6). -/
abbrev State.flipDue (s : State) (f : Fin 4) : Prop := s.flips f s.boundaryNow = true ∧ FramePart.flip f ∉ s.ahead

theorem State.flipDue_iff (s : State) (f : Fin 4) :
    (s.flips f s.boundaryNow && !s.isAhead (.flip f)) = true ↔ s.flipDue f := by
  simp [State.isAhead]

/-- A flip is due where the field set has a pending bank, the timelines that its test reads are at a boundary, and the job in flight
does not hold it (R58). -/
theorem State.flipDue_iff_conditions {s : State} {f : Fin 4} :
    s.flipDue f ↔ s.store.sets[f].findRole .pending ≠ none ∧ s.pages.timelinesAtBoundary f s.boundaryNow = true ∧
      s.render.holds f = false ∧ FramePart.flip f ∉ s.ahead := by
  simp only [State.flipDue, State.flips, Bool.and_eq_true, Bool.not_eq_true', Option.isSome_iff_ne_none, and_assoc]

/-! ### FLIP ahead of the rest (log 6) -/

/-- The frame start now due is entered, and the timelines that the flip test of `f` reads have handled it (log 6). -/
def State.beforeFlip (s : State) (f : Fin 4) : State := s.enterFrame.timelinesBeforeFlip f

/-- A field set has flipped ahead of the rest (R59, log 6). -/
def State.flipAhead (s : State) (f : Fin 4) : State :=
  (((s.beforeFlip f).setFieldSet f s.store.sets[f].flip).markAhead (.flip f)).notifyAll .forecast
    (s.store.sets[f].liveNotice f)

section Ahead

variable (s : State) (f : Fin 4)

theorem frame_beforeFlip : Frame [.clock, .keyEnable, .timing, .timelines, .port .studio, .ahead] s (s.beforeFlip f) :=
  ((frame_enterFrame s).mono (by simp)).trans ((frame_timelinesAhead _ _).mono (by simp))

theorem beforeFlip_eq : s.beforeFlip f = (s.pages.flipTimelines f).foldl State.timelineAhead s.enterFrame := by
  unfold State.beforeFlip State.timelinesBeforeFlip
  rw [(frame_enterFrame s).pages_eq (by simp)]

theorem frame_flipAhead_after : Frame [.store, .ahead, .port .forecast] (s.beforeFlip f) (s.flipAhead f) :=
  ((frame_setFieldSet _ _ _).mono (by simp)).trans
    (((frame_markAhead _ _).mono (by simp)).trans ((frame_notifyAll _ _ _).mono (by simp)))

theorem flipAhead_sets_same : (s.flipAhead f).store.sets[f] = s.store.sets[f].flip := by
  unfold State.flipAhead
  rw [(frame_notifyAll _ _ _).store_eq (by simp), State.markAhead_store, State.setFieldSet_same]

theorem flipAhead_sets_other {g : Fin 4} (h : g ≠ f) : (s.flipAhead f).store.sets[g] = s.store.sets[g] := by
  unfold State.flipAhead
  rw [(frame_notifyAll _ _ _).store_eq (by simp), State.markAhead_store, State.setFieldSet_other _ h,
    (frame_beforeFlip s f).store_eq (by simp)]

theorem beforeFlip_frame : (s.beforeFlip f).timing.frame = s.dueFrame := by
  rw [beforeFlip_eq, (frame_timelinesAhead _ _).timing_eq (by simp) (by simp), enterFrame_frame]

theorem flipAhead_frame : (s.flipAhead f).timing.frame = s.dueFrame := by
  rw [(frame_flipAhead_after s f).timing_eq (by simp) (by simp), beforeFlip_frame]

/-- The notice of the flip, with the number of the frame that begins (R59, log 17). -/
theorem flipAhead_forecast {second : Bool} (h : s.store.sets[f].findRole .pending = some second) :
    (s.flipAhead f).forecast = Port.notify ((Notice.bankLive f second).packet s.dueFrame) s.forecast := by
  have hport : (s.beforeFlip f).port .forecast = s.port .forecast := (frame_beforeFlip s f).port_eq .forecast (by simp)
  have hnotice : (s.flipAhead f).port .forecast =
      Port.notify ((Notice.bankLive f second).packet (s.beforeFlip f).timing.frame) ((s.beforeFlip f).port .forecast) := by
    unfold State.flipAhead
    rw [FieldSet.liveNotice_pending h, notifyAll_port]
    rfl
  rwa [hport, beforeFlip_frame] at hnotice

/-- Each timeline that the test reads handles the frame start once; the others stand (R75, log 6). -/
theorem flipAhead_timelines (n : Fin 4) :
    (s.flipAhead f).timelines[n] =
      if n ∈ s.pages.flipTimelines f ∧ FramePart.timeline n ∉ s.ahead then s.timelines[n].frame else s.timelines[n] := by
  rw [(frame_flipAhead_after s f).timelines_eq (by simp), beforeFlip_eq, timelinesAhead_timelines,
    enterFrame_isAhead s (by simp), (frame_enterFrame s).timelines_eq (by simp)]
  exact if_congr (by rw [← isAhead_iff, Bool.not_eq_true]) rfl rfl

/-- The timelines that the test reads are marked, so that FRAME_START does not handle them again (log 6). -/
theorem timeline_mem_flipAhead {n : Fin 4} (h : n ∈ s.pages.flipTimelines f) :
    FramePart.timeline n ∈ (s.flipAhead f).ahead := by
  have hmarked : FramePart.timeline n ∈ (s.beforeFlip f).ahead := by
    rw [← isAhead_iff, beforeFlip_eq, timelinesAhead_isAhead, Bool.or_eq_true]
    exact Or.inl (List.any_eq_true.2 ⟨n, h, decide_eq_true rfl⟩)
  unfold State.flipAhead
  rw [(frame_notifyAll _ _ _).ahead_eq (by simp)]
  exact List.mem_cons_of_mem _ hmarked

theorem flipAhead_boundary {n : Fin 4} (hb : s.pages.timelinesAtBoundary f s.boundaryNow = true)
    (h : n ∈ s.pages.flipTimelines f) : (s.flipAhead f).timelines[n].shown.boundary = true := by
  rw [(frame_flipAhead_after s f).timelines_eq (by simp)]
  exact timelinesBeforeFlip_boundary s f n hb h

/-- The notices of the timelines that handle the frame start with the flip go to the studio link, under its number (R77, log 17). -/
theorem flipAhead_studio :
    (s.flipAhead f).studio = ((s.pages.flipTimelines f).flatMap fun n => s.partNotices (.timeline n)).foldl
      (fun q x => Port.notify (x.2.packet s.dueFrame) q) s.studio := by
  have hport : (s.flipAhead f).studio = (s.beforeFlip f).studio := (frame_flipAhead_after s f).port_eq .studio (by simp)
  have henter : s.enterFrame.studio = s.studio := (frame_enterFrame s).port_eq .studio (by simp)
  have hnotices : ((s.pages.flipTimelines f).flatMap fun n => s.partNotices (.timeline n)) =
      ((s.pages.flipTimelines f).flatMap fun n =>
        if s.isAhead (.timeline n) then [] else s.timelines[n].frameNotice n).map fun x => (Link.studio, x) := by
    rw [List.map_flatMap]
    refine List.flatMap_congr fun n _ => ?_
    rw [partNotices_timeline]
    split <;> rfl
  rw [hport, beforeFlip_eq, timelinesAhead_studio _ _ (flipTimelines_nodup _ _), hnotices, List.foldl_map, henter,
    enterFrame_frame, (frame_enterFrame s).timelines_eq (by simp)]
  congr 1
  exact List.flatMap_congr fun n _ => by rw [enterFrame_isAhead s (by simp)]

variable {s f}

theorem flip_acts (h : s.flipDue f) : exec (.flip f) s = .next (s.flipAhead f) := by
  have hset : s.store.sets[f] = (s.beforeFlip f).store.sets[f] := by rw [(frame_beforeFlip s f).store_eq (by simp)]
  unfold State.flipAhead
  rw [hset]
  exact congrArg Host.Outcome.next (if_pos ((State.flipDue_iff s f).2 h))

/-- The row does nothing where its conditions do not hold (log 4). -/
theorem flip_stands (h : ¬s.flipDue f) : exec (.flip f) s = .next s :=
  congrArg Host.Outcome.next (if_neg (mt (State.flipDue_iff s f).1 h))

end Ahead

/-! ### The flip with FRAME_START -/

/-- Entering a frame start leaves what the flip test reads of each timeline (R78). -/
theorem enterFrame_boundaryNow (s : State) : s.enterFrame.boundaryNow = s.boundaryNow := by
  funext n
  unfold State.boundaryNow
  rw [enterFrame_isAhead s (by simp), (frame_enterFrame s).timelines_eq (by simp)]

theorem enterFrame_flips (s : State) (f : Fin 4) (boundary : Fin 4 → Bool) :
    s.enterFrame.flips f boundary = s.flips f boundary := by
  unfold State.flips
  rw [(frame_enterFrame s).store_eq (by simp), (frame_enterFrame s).pages_eq (by simp),
    (frame_enterFrame s).render_eq (by simp)]

/-- Each field set after FRAME_START: flipped where its own flip is due, else as it was (R58, R59). -/
theorem frameStart_sets (order : List FramePart) (s : State) :
    ∃ t, exec (.frameStart order) s = .next t ∧
      ∀ f : Fin 4, t.store.sets[f] = if s.flipDue f then s.store.sets[f].flip else s.store.sets[f] := by
  obtain ⟨t, ht, hf⟩ := frameStart_next order s
  refine ⟨t, ht, fun f => ?_⟩
  have hboundary : (fun n : Fin 4 => s.enterFrame.timelineFrame.timelines[n].shown.boundary) = s.boundaryNow :=
    (funext (boundary_timelineFrame s.enterFrame)).trans (enterFrame_boundaryNow s)
  rw [hf.store_eq (by simp), framed_sets, hboundary, enterFrame_flips, enterFrame_isAhead s (by simp),
    (frame_enterFrame s).store_eq (by simp)]
  exact if_congr (State.flipDue_iff s f) rfl rfl

theorem partNotices_flip_due {s : State} {f : Fin 4} {second : Bool} (h : s.flipDue f)
    (hp : s.store.sets[f].findRole .pending = some second) :
    s.partNotices (.flip f) = [(.forecast, .bankLive f second)] := by
  rw [partNotices_flip, if_pos ((State.flipDue_iff s f).2 h), FieldSet.liveNotice_pending hp]
  rfl

theorem partNotices_flip_stands {s : State} {f : Fin 4} (h : ¬s.flipDue f) : s.partNotices (.flip f) = [] := by
  rw [partNotices_flip, if_neg (mt (State.flipDue_iff s f).1 h)]

/-- Settles O27: the flip that is due, by its own row and by FRAME_START, its timeline condition, and the flip that is not due. -/
theorem flipMakesPendingLive : Obligations.FlipMakesPendingLive := by
  refine ⟨fun s f second hp hb hh hn => ?due,
    fun t f boundary => ⟨timelinesAtBoundary_iff t f boundary, fun _ => PageTable.mem_flipTimelines⟩,
    fun s f h => ?stands⟩
  case due =>
    have hdue : s.flipDue f := State.flipDue_iff_conditions.2 ⟨hp ▸ Option.some_ne_none second, hb, hh, hn⟩
    refine ⟨⟨_, flip_acts hdue, ?_, fun _ => flipAhead_sets_other s f, flipAhead_frame s f, flipAhead_forecast s f hp,
      flipAhead_timelines s f, fun n hm => ⟨timeline_mem_flipAhead s f hm, flipAhead_boundary s f hb hm⟩,
      flipAhead_studio s f⟩, fun order => ?_⟩
    · rw [flipAhead_sets_same]
      exact FieldSet.flip_flipped hp
    · obtain ⟨t, ht, hsets⟩ := frameStart_sets order s
      refine ⟨t, ht, ?_, partNotices_flip_due hdue hp⟩
      rw [hsets, if_pos hdue]
      exact FieldSet.flip_flipped hp
  case stands =>
    have hnot : ¬s.flipDue f := fun hdue => by
      obtain ⟨hp, hb, hh, hn⟩ := State.flipDue_iff_conditions.1 hdue
      rcases h with h | h | h | h
      · exact hp h
      · exact Bool.eq_false_iff.1 h hb
      · exact Bool.eq_false_iff.1 hh h
      · exact hn h
    refine ⟨flip_stands hnot, fun order => ?_⟩
    obtain ⟨t, ht, hsets⟩ := frameStart_sets order s
    exact ⟨t, ht, (hsets f).trans (if_neg hnot), partNotices_flip_stands hnot⟩

end Sys2Proof.Machine
end

section
/-! The field sets through every step (O29). -/

namespace Sys2Proof.Machine

/-! ### One field set's operations keep its arrangement (Table 4-2) -/

section Set

variable {v : FieldSet} {g : Geometry} {second : Bool}

/-- A bank that is live or pending has a full map (R51). -/
abbrev Bank.heldFull (b : Bank) (g : Geometry) : Prop := b.role = .live ∨ b.role = .pending → b.full g

/-- The arrangements of Table 4-2 do not depend on which bank is which. -/
theorem arranged_comm (a b : BankRole) : arranged a b = arranged b a := by cases a <;> cases b <;> rfl

/-- A pending bank stands beside whatever a staging bank stands beside (Table 4-2). -/
theorem arranged_pending (r : BankRole) : arranged .pending r = arranged .staging r := by cases r <;> rfl

/-- A DEFINED field set, seen from either of its banks (R51, Table 4-2). -/
theorem FieldSet.legal_iff (hg : v.geometry = some g) (second : Bool) :
    v.legal ↔ g.valid = true ∧ arranged (v.bank second).role (v.bank (!second)).role = true ∧
      (v.bank second).heldFull g ∧ (v.bank (!second)).heldFull g := by
  unfold FieldSet.legal
  rw [hg]
  cases second with
  | false => exact Iff.rfl
  | true => exact and_congr_right' (and_congr (by rw [arranged_comm]; exact Iff.rfl) and_comm)

/-- A field set of which a bank has a role is DEFINED (R51). -/
theorem FieldSet.defined_of_findRole {r : BankRole} (hl : v.legal) (hr : r ≠ .unused) (h : v.findRole r = some second) :
    ∃ g, v.geometry = some g := by
  cases hg : v.geometry with
  | some g => exact ⟨g, rfl⟩
  | none =>
    simp only [FieldSet.legal, hg] at hl
    obtain ⟨h0, h1, -, -⟩ := hl
    have hrole := FieldSet.findRole_role h
    cases second with
    | false => exact absurd (hrole.symm.trans h0) hr
    | true => exact absurd (hrole.symm.trans h1) hr

/-- A field set with one bank replaced, beside which the other may stand (Table 4-2). -/
theorem FieldSet.legal_setBank {b : Bank} (hg : v.geometry = some g) (hl : v.legal)
    (ha : arranged b.role (v.bank (!second)).role = true) (hf : b.heldFull g) : (v.setBank second b).legal := by
  obtain ⟨hvalid, -, -, hother⟩ := (FieldSet.legal_iff hg second).1 hl
  refine (FieldSet.legal_iff ((FieldSet.setBank_geometry v second b).trans hg) second).2 ?_
  rw [FieldSet.setBank_bank, FieldSet.setBank_bank_not]
  exact ⟨hvalid, ha, hf, hother⟩

/-- GRID DEFINE leaves bank 0 staging and bank 1 unused (R54). -/
theorem FieldSet.define_legal (v : FieldSet) (h : g.valid = true) : (v.define g).legal :=
  (FieldSet.legal_iff (v := v.define g) rfl false).2 ⟨h, rfl, by simp [FieldSet.define, FieldSet.bank],
    by simp [FieldSet.define, FieldSet.bank]⟩

/-- Rows are written to the staging bank, whose map need not be full (R55). -/
theorem FieldSet.rowWritten_legal (p : Packet) (hl : v.legal) (hg : v.geometry = some g)
    (hs : v.findRole .staging = some second) : (v.setBank second (rowWritten p g (v.bank second))).legal := by
  have hrole : (rowWritten p g (v.bank second)).role = (v.bank second).role := rfl
  obtain ⟨-, harranged, hheld, -⟩ := (FieldSet.legal_iff hg second).1 hl
  refine FieldSet.legal_setBank hg hl (hrole ▸ harranged) fun h => ?_
  rw [hrole, FieldSet.findRole_role hs] at h
  simp at h

/-- A bank with no missing pair is full (R57). -/
theorem Bank.full_of_firstMissing {b : Bank} (h : b.firstMissing g = none) : b.full g := by
  rw [Bank.firstMissing_eq, List.find?_eq_none] at h
  intro sl hsl r hr
  simpa using h (sl, r) (mem_gridPairs.2 ⟨hsl, hr⟩)

/-- A staging bank with no missing pair may wait for its flip (R57). -/
theorem FieldSet.offered_legal (hl : v.legal) (hg : v.geometry = some g) (hs : v.findRole .staging = some second)
    (h : (v.bank second).firstMissing g = none) :
    (v.setBank second { v.bank second with role := .pending }).legal := by
  obtain ⟨-, harranged, -, -⟩ := (FieldSet.legal_iff hg second).1 hl
  refine FieldSet.legal_setBank hg hl ?_ fun _ => Bank.full_of_firstMissing h
  rwa [arranged_pending, ← FieldSet.findRole_role hs]

/-- A flip makes a full bank live, and the other staging (R59). -/
theorem FieldSet.flip_legal (hl : v.legal) : v.flip.legal := by
  cases hp : v.findRole .pending with
  | none => rwa [FieldSet.flip_noPending hp]
  | some second =>
    obtain ⟨g, hg⟩ := FieldSet.defined_of_findRole hl (by decide) hp
    obtain ⟨hvalid, -, hheld, -⟩ := (FieldSet.legal_iff hg second).1 hl
    obtain ⟨hlive, hstaging, hgeometry⟩ := FieldSet.flip_flipped hp
    refine (FieldSet.legal_iff (hgeometry.trans hg) second).2 ?_
    rw [hlive, hstaging]
    exact ⟨hvalid, rfl, fun _ => hheld (Or.inr (FieldSet.findRole_role hp)), by simp⟩

end Set

/-! ### What the GRID commands can do to the data store (R53, R55, R57) -/

section Grid

variable (p : Packet) (s : State)

/-- GRID DEFINE answers alone, or defines one field set anew with a valid geometry (R53, R54). -/
theorem ownGridDefine_cases :
    (∃ st r, ownGridDefine p s = s.finish p.link st r) ∨
      ∃ (f : Fin 4) (g : Geometry), g.valid = true ∧
        ownGridDefine p s = (s.setFieldSet f (s.store.sets[f].define g)).finish p.link .ok [] := by
  unfold ownGridDefine
  split
  · exact .inl ⟨_, _, rfl⟩
  · split
    · exact .inl ⟨_, _, rfl⟩
    · split
      · exact .inl ⟨_, _, rfl⟩
      · split
        · rename_i hvalid
          exact .inr ⟨_, _, hvalid, rfl⟩
        · exact .inl ⟨_, _, rfl⟩

/-- GRID ROWS answers alone, or writes one row to the staging bank of a DEFINED field set (R55, R56). -/
theorem ownGridRows_cases :
    (∃ st r, ownGridRows p s = s.finish p.link st r) ∨
      ∃ (f : Fin 4) (g : Geometry) (second : Bool) (st : Status) (r : List Byte),
        s.store.sets[f].geometry = some g ∧ s.store.sets[f].findRole .staging = some second ∧
          ownGridRows p s =
            (s.setFieldSet f (s.store.sets[f].setBank second (rowWritten p g (s.store.sets[f].bank second)))).finish
              p.link st r := by
  unfold ownGridRows
  split
  · exact .inl ⟨_, _, rfl⟩
  · dsimp only
    split
    · exact .inl ⟨_, _, rfl⟩
    · rename_i hg
      split
      · exact .inl ⟨_, _, rfl⟩
      · split
        · exact .inl ⟨_, _, rfl⟩
        · split
          · exact .inl ⟨_, _, rfl⟩
          · rename_i hs
            exact .inr ⟨_, _, _, _, _, hg, hs, rfl⟩

/-- GRID PUBLISH answers alone, or makes the full staging bank of a DEFINED field set pending (R57). -/
theorem ownGridPublish_cases :
    (∃ st r, ownGridPublish p s = s.finish p.link st r) ∨
      ∃ (f : Fin 4) (g : Geometry) (second : Bool),
        s.store.sets[f].geometry = some g ∧ s.store.sets[f].findRole .staging = some second ∧
          (s.store.sets[f].bank second).firstMissing g = none ∧
          ownGridPublish p s =
            (s.setFieldSet f
              (s.store.sets[f].setBank second { s.store.sets[f].bank second with role := .pending })).finish
              p.link .ok [] := by
  unfold ownGridPublish
  split
  · exact .inl ⟨_, _, rfl⟩
  · dsimp only
    split
    · exact .inl ⟨_, _, rfl⟩
    · rename_i hg
      split
      · exact .inl ⟨_, _, rfl⟩
      · split
        · exact .inl ⟨_, _, rfl⟩
        · rename_i hs
          split
          · exact .inl ⟨_, _, rfl⟩
          · rename_i hfull
            exact .inr ⟨_, _, _, hg, hs, hfull, rfl⟩

end Grid

/-! ### Writes of lists and symbols leave the field sets (R63, R65) -/

section Lists

variable (s : State)

theorem FieldStore.apply_sets (v : FieldStore) (w : DeferredWrite) : (v.apply w).sets = v.sets := by cases w <;> rfl

theorem applyDeferred_sets : s.applyDeferred.store.sets = s.store.sets := by
  unfold State.applyDeferred
  split
  · rfl
  · rw [State.finish_store, State.setRender_store, State.setStore_store, FieldStore.apply_sets]

theorem deferWrite_sets (w : DeferredWrite) : (s.deferWrite w).store.sets = s.store.sets := by
  unfold State.deferWrite
  dsimp only
  split
  · rw [applyDeferred_sets, State.setRender_store]
  · rfl

/-- The work that a job's end leaves to be done writes lists and symbols alone in the data store (R130). -/
theorem endJob_sets : s.endJob.store.sets = s.store.sets := by
  unfold State.endJob
  rw [gapWork_store, applyDeferred_sets, State.setChart_store, State.setJob_store]

theorem completeJob_sets (j : Job) : (s.completeJob j).store.sets = s.store.sets := by
  unfold State.completeJob
  dsimp only
  generalize s.render.setBuffer j.buffer _ = r
  split
  · rw [endJob_sets, State.notify_store, State.setRender_store, State.setRender_store]
  · rw [endJob_sets, State.setRender_store]

theorem discardJob_sets (j : Job) (tile : Nat) : (s.discardJob j tile).store.sets = s.store.sets := by
  unfold State.discardJob
  rw [endJob_sets, State.notify_store, State.setRender_store]

theorem jobComplete_sets : ∃ t, exec .jobComplete s = .next t ∧ t.store.sets = s.store.sets := by
  refine ⟨_, rfl, ?_⟩
  dsimp only
  split
  · rw [completeJob_sets, (frame_runJob s).store_eq (by simp)]
  · rfl

theorem tileFetchComplete_sets (noise : List Byte) :
    ∃ t, exec (.tileFetchComplete noise) s = .next t ∧ t.store.sets = s.store.sets := by
  refine ⟨_, rfl, ?_⟩
  dsimp only
  split
  · rename_i j it r _ _
    have hfetched : (s.runJob.endFetch r noise).1.store = s.store := by
      rw [(frame_endFetch _ r noise).store_eq (by simp), (frame_runJob s).store_eq (by simp)]
    split
    · rw [(frame_afterFetch _).store_eq (by simp), (frame_settle _ j it _).store_eq (by simp), State.setChart_store,
        hfetched]
    · rw [(frame_afterFetch _).store_eq (by simp), discardJob_sets, State.setChart_store, hfetched]
  · rfl

end Lists

/-! ### Every command keeps the field sets legal -/

/-- Every field set is EMPTY, or DEFINED in an arrangement of Table 4-2 with full live and pending banks (R51). -/
abbrev State.setsLegal (s : State) : Prop := ∀ f : Fin 4, s.store.sets[f].legal

theorem State.setsLegal_congr {s t : State} (h : t.store.sets = s.store.sets) (hl : s.setsLegal) : t.setsLegal := by
  intro f
  rw [h]
  exact hl f

theorem reads_setsLegal : Reads [.store] State.setsLegal := fun s t h hl =>
  State.setsLegal_congr (congrArg FieldStore.sets (show t.store = s.store from h .store (by simp))) hl

/-- A command that leaves the field sets keeps them legal. -/
theorem keepsSetsLegal_sets {c : Instr} (h : ∀ s, ∃ t, exec c s = .next t ∧ t.store.sets = s.store.sets) :
    Keeps State.setsLegal c := fun s hl => by
  obtain ⟨t, ht, hsets⟩ := h s
  exact ⟨t, ht, State.setsLegal_congr hsets hl⟩

section Owners

variable (p : Packet) {s : State}

theorem setFieldSet_setsLegal {f : Fin 4} {v : FieldSet} (hl : s.setsLegal) (hv : v.legal) :
    (s.setFieldSet f v).setsLegal := fun h => by
  by_cases hh : h = f
  · subst hh
    rwa [State.setFieldSet_same]
  · rw [State.setFieldSet_other _ hh]
    exact hl h

theorem finish_setsLegal (l : Link) (st : Status) (result : List Byte) (hl : s.setsLegal) :
    (s.finish l st result).setsLegal := State.setsLegal_congr (by rw [State.finish_store]) hl

theorem ownGridDefine_setsLegal (hl : s.setsLegal) : (ownGridDefine p s).setsLegal := by
  obtain ⟨st, r, h⟩ | ⟨f, g, hvalid, h⟩ := ownGridDefine_cases p s
  · rw [h]
    exact finish_setsLegal _ _ _ hl
  · rw [h]
    exact finish_setsLegal _ _ _ (setFieldSet_setsLegal hl (FieldSet.define_legal _ hvalid))

theorem ownGridRows_setsLegal (hl : s.setsLegal) : (ownGridRows p s).setsLegal := by
  obtain ⟨st, r, h⟩ | ⟨f, g, second, st, r, hg, hs, h⟩ := ownGridRows_cases p s
  · rw [h]
    exact finish_setsLegal _ _ _ hl
  · rw [h]
    exact finish_setsLegal _ _ _ (setFieldSet_setsLegal hl (FieldSet.rowWritten_legal p (hl f) hg hs))

theorem ownGridPublish_setsLegal (hl : s.setsLegal) : (ownGridPublish p s).setsLegal := by
  obtain ⟨st, r, h⟩ | ⟨f, g, second, hg, hs, hfull, h⟩ := ownGridPublish_cases p s
  · rw [h]
    exact finish_setsLegal _ _ _ hl
  · rw [h]
    exact finish_setsLegal _ _ _ (setFieldSet_setsLegal hl (FieldSet.offered_legal (hl f) hg hs hfull))

theorem ownListWrite_setsLegal (hl : s.setsLegal) : (ownListWrite p s).setsLegal := by
  unfold ownListWrite
  dsimp only
  split
  · split
    · exact finish_setsLegal _ _ _ hl
    · exact State.setsLegal_congr (deferWrite_sets s _) hl
  · exact finish_setsLegal _ _ _ hl

theorem ownSymbolWrite_setsLegal (hl : s.setsLegal) : (ownSymbolWrite p s).setsLegal := by
  unfold ownSymbolWrite
  split
  · exact finish_setsLegal _ _ _ hl
  · exact State.setsLegal_congr (deferWrite_sets s _) hl

end Owners

/-- After a power-on reset every field set is EMPTY (R68). -/
theorem keepsSetsLegal_powerOnReset (high : Bool) : Keeps State.setsLegal (.powerOnReset high) := fun s _ => by
  refine ⟨_, rfl, fun f => ?_⟩
  have hset : (s.store.sets.map FieldSet.afterReset)[f] = s.store.sets[f].afterReset := Vector.getElem_map _ f.isLt
  change (s.store.sets.map FieldSet.afterReset)[f].legal
  rw [hset]
  exact FieldSet.empty_legal _ _

theorem keepsSetsLegal_frameStart (order : List FramePart) : Keeps State.setsLegal (.frameStart order) := fun s hl => by
  obtain ⟨t, ht, hsets⟩ := frameStart_sets order s
  refine ⟨t, ht, fun f => ?_⟩
  rw [hsets]
  split
  · exact FieldSet.flip_legal (hl f)
  · exact hl f

theorem keepsSetsLegal_flip (f : Fin 4) : Keeps State.setsLegal (.flip f) := fun s hl => by
  by_cases hdue : s.flipDue f
  · refine ⟨_, flip_acts hdue, fun h => ?_⟩
    by_cases hh : h = f
    · subst hh
      rw [flipAhead_sets_same]
      exact FieldSet.flip_legal (hl h)
    · rw [flipAhead_sets_other s f hh]
      exact hl h
  · exact ⟨s, flip_stands hdue, hl⟩

theorem keepsSetsLegal_deferredWriteApply : Keeps State.setsLegal .deferredWriteApply := by
  refine keepsSetsLegal_sets fun s => ⟨_, rfl, ?_⟩
  split
  · exact applyDeferred_sets s
  · rfl

/-- A packet command of the data store, whose owner keeps the field sets legal. -/
theorem keepsSetsLegal_packet {c : Instr} {k : Kind} {p : Packet} {own : Packet → State → State}
    (hc : ∀ s, exec c s = .next (serve k p own s)) (h : ∀ s, s.setsLegal → (own p s).setsLegal) :
    Keeps State.setsLegal c := keeps_packet reads_setsLegal (by simp [packetBlocks]) hc h

theorem keepsSetsLegal (c : Instr) : Keeps State.setsLegal c := by
  cases c with
  | powerOnReset high => exact keepsSetsLegal_powerOnReset high
  | frameStart order => exact keepsSetsLegal_frameStart order
  | flip f => exact keepsSetsLegal_flip f
  | tileFetchComplete noise => exact keepsSetsLegal_sets fun s => tileFetchComplete_sets s noise
  | jobComplete => exact keepsSetsLegal_sets jobComplete_sets
  | deferredWriteApply => exact keepsSetsLegal_deferredWriteApply
  | gridDefine p => exact keepsSetsLegal_packet (fun _ => rfl) fun _ => ownGridDefine_setsLegal p
  | gridRows p => exact keepsSetsLegal_packet (fun _ => rfl) fun _ => ownGridRows_setsLegal p
  | gridPublish p => exact keepsSetsLegal_packet (fun _ => rfl) fun _ => ownGridPublish_setsLegal p
  | listWrite p => exact keepsSetsLegal_packet (fun _ => rfl) fun _ => ownListWrite_setsLegal p
  | symbolWrite p => exact keepsSetsLegal_packet (fun _ => rfl) fun _ => ownSymbolWrite_setsLegal p
  | _ => exact keeps_untouched reads_setsLegal (by simp [touched, packetBlocks])

/-- Settles O29: every command keeps the field sets legal, and a step on an empty queue leaves them. -/
theorem fieldSetsLegalKept : Obligations.FieldSetsLegalKept := fun _ _ hl hstep =>
  step_keeps reads_setsLegal (by simp) (by simp) keepsSetsLegal hl hstep

end Sys2Proof.Machine
end

section
/-! The travel and the profile of a step (O34). -/

namespace Sys2Proof.Machine

/-! ### The travel (R72) -/

section Travel

variable {tf k m : Nat}

theorem travel_within (h : k ≤ tf) : travel tf k = (512 * k + tf) / (2 * tf) := if_pos h

theorem travel_above (h : tf < k) : travel tf k = 256 := if_neg (Nat.not_le.2 h)

theorem travel_last (h : 1 ≤ tf) : travel tf tf = 256 := by
  rw [travel_within le_rfl]
  exact Nat.div_eq_of_lt_le (by omega) (by omega)

/-- Short of its last frame a travel of at most 64 frames has left the start and has not arrived (R72). -/
theorem travel_bounds (hk : 1 ≤ k) (h : k < tf) (h64 : tf ≤ 64) : 1 ≤ travel tf k ∧ travel tf k ≤ 255 := by
  rw [travel_within h.le]
  exact ⟨(Nat.le_div_iff_mul_le (by omega)).2 (by omega), Nat.lt_succ_iff.1 ((Nat.div_lt_iff_lt_mul (by omega)).2 (by omega))⟩

theorem travel_mono (h : 1 ≤ tf) (hkm : k ≤ m) : travel tf k ≤ travel tf m := by
  have within {a b : Nat} (hab : a ≤ b) (hb : b ≤ tf) : travel tf a ≤ travel tf b := by
    rw [travel_within (hab.trans hb), travel_within hb]
    exact Nat.div_le_div_right (by omega)
  rcases Nat.lt_or_ge tf m with hm | hm
  · rw [travel_above hm]
    rcases Nat.lt_or_ge tf k with hk | hk
    · rw [travel_above hk]
    · exact (within hk le_rfl).trans_eq (travel_last h)
  · exact within hkm hm

theorem travel_le (h : 1 ≤ tf) (k : Nat) : travel tf k ≤ 256 :=
  (travel_mono h (Nat.le_add_left k (tf + 1))).trans_eq (travel_above (by omega))

end Travel

/-- Settles O34, from the rounded quotient below Tf and the constant above it. -/
theorem travelRisesTo256 : Obligations.TravelRisesTo256 := fun _ h1 h64 =>
  ⟨travel_last h1, fun _ => travel_above, fun _ _ => travel_within, fun _ hk h => travel_bounds hk h h64,
    fun _ _ => travel_mono h1⟩

/-- No profile passes the end of its travel (R72, R73). -/
theorem Timeline.profile_le {t : Timeline} (hf : 1 ≤ t.tf) (hr : 1 ≤ t.tr) (k : Nat) : t.profile k ≤ 256 := by
  unfold Timeline.profile
  split
  · split
    · exact Nat.zero_le _
    · exact travel_le hr _
  · exact travel_le hf _

/-! ### The period of a step (R71) -/

theorem ratePeriod_bounds (r : Nat) : 8 ≤ ratePeriod r ∧ ratePeriod r ≤ 50 := by
  unfold ratePeriod
  split <;> decide

/-- A reverse step at rate code 0 is served at rate code 1 (R71). -/
theorem Timeline.stepPeriod_eq (t : Timeline) :
    t.stepPeriod = if t.reverse = true ∧ t.rate = 0 then 10 else ratePeriod t.rate := by
  simp [Timeline.stepPeriod, ratePeriod]

theorem Timeline.stepPeriod_bounds (t : Timeline) : 8 ≤ t.stepPeriod ∧ t.stepPeriod ≤ 50 := by
  rw [Timeline.stepPeriod_eq]
  split
  · decide
  · exact ratePeriod_bounds _

end Sys2Proof.Machine
end

section
/-! A timeline's step cycle at a frame start, with FRAME_START and ahead of it (O32, O33). -/

namespace Sys2Proof.Machine

/-! ### What a legal timeline is, at rest and in a step (R69, R70) -/

/-- The ranges of the items that a timeline has in every state (Table 5-1, R69, R70). -/
structure Timeline.Ranged (t : Timeline) : Prop where
  span_pos : 1 ≤ t.span
  span_le : t.span ≤ 25
  s_lt : t.s < t.span
  counter_le : t.counter ≤ 15
  queued_le : t.queued ≤ 15
  counter_of_queued : t.queued ≠ 0 → t.counter ≠ 0
  rate_le : t.rate ≤ 7
  tf_pos : 1 ≤ t.tf
  tf_le : t.tf ≤ 64
  lead_le : t.lead ≤ 15
  tr_pos : 1 ≤ t.tr
  tr_le : t.tr ≤ 64
  period_ge : 8 ≤ t.period
  period_le : t.period ≤ 50

/-- What a timeline with no step in progress holds of a step: nothing (R69). -/
structure Timeline.AtRest (t : Timeline) : Prop where
  q_eq : t.q = 0
  k_eq : t.k = 0
  nextRate_eq : t.nextRate = none

/-- What a step in progress needs: a count below its period, a counter, and room in the span (R69, R75). -/
structure Timeline.InStep (t : Timeline) : Prop where
  q_le : t.q ≤ 256
  nextRate_le : ∀ r, t.nextRate = some r → r ≤ 7
  k_pos : 1 ≤ t.k
  k_lt : t.k < t.period
  counter_ne : t.counter ≠ 0
  room : t.reverse = false → t.s + 1 < t.span
  room_reverse : t.reverse = true → t.s ≠ 0

section Legal

variable {t : Timeline}

theorem Timeline.legal_ranged (h : t.legal) : t.Ranged := by
  obtain ⟨hspan, hspan', hs, -, hcounter, hqueued, hboth, hrate, -, htf, htf', hlead, htr, htr', hperiod, hperiod', -⟩ := h
  exact ⟨hspan, hspan', hs, hcounter, hqueued, hboth, hrate, htf, htf', hlead, htr, htr', hperiod, hperiod'⟩

theorem Timeline.legal_iff_atRest (hm : t.moving = false) : t.legal ↔ t.Ranged ∧ t.AtRest := by
  constructor
  · intro h
    refine ⟨Timeline.legal_ranged h, ?_⟩
    obtain ⟨-, -, -, -, -, -, -, -, -, -, -, -, -, -, -, -, hrest, -⟩ := h
    obtain ⟨hq, hk, hn⟩ := hrest hm
    exact ⟨hq, hk, hn⟩
  · rintro ⟨r, a⟩
    exact ⟨r.span_pos, r.span_le, r.s_lt, by simp [a.q_eq], r.counter_le, r.queued_le, r.counter_of_queued, r.rate_le,
      by simp [a.nextRate_eq], r.tf_pos, r.tf_le, r.lead_le, r.tr_pos, r.tr_le, r.period_ge, r.period_le,
      fun _ => ⟨a.q_eq, a.k_eq, a.nextRate_eq⟩, by simp [hm]⟩

theorem Timeline.legal_iff_inStep (hm : t.moving = true) : t.legal ↔ t.Ranged ∧ t.InStep := by
  constructor
  · intro h
    refine ⟨Timeline.legal_ranged h, ?_⟩
    obtain ⟨-, -, -, hq, -, -, -, -, hn, -, -, -, -, -, -, -, -, hstep⟩ := h
    obtain ⟨hk, hk', hc, hroom, hroom'⟩ := hstep hm
    exact ⟨hq, hn, hk, hk', hc, hroom, hroom'⟩
  · rintro ⟨r, i⟩
    exact ⟨r.span_pos, r.span_le, r.s_lt, i.q_le, r.counter_le, r.queued_le, r.counter_of_queued, r.rate_le,
      i.nextRate_le, r.tf_pos, r.tf_le, r.lead_le, r.tr_pos, r.tr_le, r.period_ge, r.period_le, by simp [hm],
      fun _ => ⟨i.k_pos, i.k_lt, i.counter_ne, i.room, i.room_reverse⟩⟩

theorem Timeline.moving_iff : t.moving = true ↔ t.state = .stepping ∨ t.state = .stopping := by
  simp [Timeline.moving]

theorem Timeline.moving_eq_false_iff : t.moving = false ↔ t.state = .stopped ∨ t.state = .armed := by
  unfold Timeline.moving
  cases t.state <;> decide

end Legal

/-! ### The step cycle, case by case (R75, R76) -/

section Cycle

variable {t : Timeline}

/-- The next step would leave the span (R75). -/
abbrev Timeline.limited (t : Timeline) : Prop :=
  t.reverse = false ∧ t.s + 1 = t.span ∨ t.reverse = true ∧ t.s = 0

theorem Timeline.atLimit_iff (h : t.s < t.span) : t.atLimit = true ↔ t.limited := by
  unfold Timeline.atLimit Timeline.limited
  cases t.reverse with
  | false => simp; omega
  | true => simp

theorem Timeline.cycle_stopped (h : t.state = .stopped) : t.cycle = t := by simp only [Timeline.cycle, h]

theorem Timeline.cycle_noSteps (h : t.state = .armed) (hc : t.counter = 0) : t.cycle = t := by
  simp only [Timeline.cycle, h, hc, if_true]

theorem Timeline.cycle_limit (h : t.state = .armed) (hc : t.counter ≠ 0) (hl : t.atLimit = true) :
    t.cycle = { t with counter := 0, queued := 0 } := by
  simp only [Timeline.cycle, h, hc, hl, if_true, if_false]

/-- A step begins: its period is fixed, and its first frame is this one (R75). -/
theorem Timeline.cycle_begins (h : t.state = .armed) (hc : t.counter ≠ 0) (hl : t.atLimit = false) :
    t.cycle = { t with state := .stepping, period := t.stepPeriod, k := 1, q := t.profile 1 } := by
  obtain ⟨hperiod, -⟩ := t.stepPeriod_bounds
  have hshort : ¬t.beginStep.period ≤ t.beginStep.k + 1 := Nat.not_le.2 (lt_of_lt_of_le (show 0 + 1 < 8 by decide) hperiod)
  simp only [Timeline.cycle, h, hc, hl, Bool.false_eq_true, if_false]
  rw [Timeline.advance, if_neg hshort]
  rfl

theorem Timeline.cycle_moving (h : t.moving = true) : t.cycle = t.advance := by
  rcases Timeline.moving_iff.1 h with h | h <;> simp only [Timeline.cycle, h]

/-- A step short of its period shows the next fraction (R75). -/
theorem Timeline.cycle_advances (h : t.moving = true) (hk : t.k + 1 < t.period) :
    t.cycle = { t with k := t.k + 1, q := t.profile (t.k + 1) } := by
  rw [Timeline.cycle_moving h, Timeline.advance, if_neg (Nat.not_le.2 hk)]

theorem Timeline.cycle_commits (h : t.moving = true) (hk : t.k + 1 = t.period) : t.cycle = t.commit := by
  rw [Timeline.cycle_moving h, Timeline.advance, if_pos hk.ge]

theorem Timeline.commit_moving (t : Timeline) : t.commit.moving = false := by
  unfold Timeline.commit Timeline.moving
  dsimp only
  split <;> rfl

/-- A timeline at rest, of which the cycle leaves the position, shows a boundary (R78). -/
theorem Timeline.values_atRest (hm : t.moving = false) (hq : t.q = 0) : t.values = ⟨t.s, 0, t.reverse, true⟩ := by
  simp only [Timeline.values, hm, hq, Bool.not_false]

theorem Timeline.values_moving (hm : t.moving = true) : t.values = ⟨t.s, t.q, t.reverse, false⟩ := by
  simp only [Timeline.values, hm, Bool.not_true]

end Cycle

/-! ### A timeline at a frame start (R75-R78) -/

section Frame

variable {t : Timeline}

theorem Timeline.frame_of_cycle {u : Timeline} {x : TimelineValues} (h : t.cycle = u) (hx : u.values = x) :
    t.frame = { u with shown := x } := by rw [Timeline.frame, h, hx]

/-- A timeline at rest that begins no step stays, and shows its boundary (R75, R78). -/
theorem Timeline.frame_stays (hl : t.legal) (hm : t.moving = false) (h : t.cycle = t) :
    t.frame = { t with shown := ⟨t.s, 0, t.reverse, true⟩ } := by
  obtain ⟨-, hrest⟩ := (Timeline.legal_iff_atRest hm).1 hl
  exact Timeline.frame_of_cycle h (Timeline.values_atRest hm hrest.q_eq)

theorem Timeline.frame_stopped (hl : t.legal) (h : t.state = .stopped) :
    t.frame = { t with shown := ⟨t.s, 0, t.reverse, true⟩ } :=
  Timeline.frame_stays hl (Timeline.moving_eq_false_iff.2 (.inl h)) (Timeline.cycle_stopped h)

theorem Timeline.frame_noSteps (hl : t.legal) (h : t.state = .armed) (hc : t.counter = 0) :
    t.frame = { t with shown := ⟨t.s, 0, t.reverse, true⟩ } :=
  Timeline.frame_stays hl (Timeline.moving_eq_false_iff.2 (.inr h)) (Timeline.cycle_noSteps h hc)

/-- At the limit of the span the counts are emptied (R75). -/
theorem Timeline.frame_limit (hl : t.legal) (h : t.state = .armed) (hc : t.counter ≠ 0) (hlim : t.limited) :
    t.frame = { t with counter := 0, queued := 0, shown := ⟨t.s, 0, t.reverse, true⟩ } := by
  have hm : t.moving = false := Timeline.moving_eq_false_iff.2 (.inr h)
  obtain ⟨hranged, hrest⟩ := (Timeline.legal_iff_atRest hm).1 hl
  exact Timeline.frame_of_cycle (Timeline.cycle_limit h hc ((Timeline.atLimit_iff hranged.s_lt).2 hlim))
    (Timeline.values_atRest hm hrest.q_eq)

/-- A step begins with its first frame (R75, R78). -/
theorem Timeline.frame_begins (hl : t.legal) (h : t.state = .armed) (hc : t.counter ≠ 0) (hlim : ¬t.limited) :
    t.frame = { t with
      state := .stepping
      period := t.stepPeriod
      k := 1
      q := t.profile 1
      shown := ⟨t.s, t.profile 1, t.reverse, false⟩ } := by
  have hat : t.atLimit = false :=
    Bool.eq_false_iff.2 (mt (Timeline.atLimit_iff (Timeline.legal_ranged hl).s_lt).1 hlim)
  exact Timeline.frame_of_cycle (Timeline.cycle_begins h hc hat) (Timeline.values_moving rfl)

theorem Timeline.frame_advances (h : t.moving = true) (hk : t.k + 1 < t.period) :
    t.frame = { t with
      k := t.k + 1
      q := t.profile (t.k + 1)
      shown := ⟨t.s, t.profile (t.k + 1), t.reverse, false⟩ } :=
  Timeline.frame_of_cycle (Timeline.cycle_advances h hk) (Timeline.values_moving h)

/-- A step in progress has a counter, so a commit that leaves it at 0 found it at 1 (R76). -/
theorem Timeline.lastStep_iff (hl : t.legal) (h : t.moving = true) : t.counter - 1 = 0 ↔ t.counter = 1 := by
  have hne := ((Timeline.legal_iff_inStep h).1 hl).2.counter_ne
  omega

/-- The commit: in reverse the position is above 0, and a counter of 1 takes up the pending count (R76, R78). -/
theorem Timeline.frame_commits (hl : t.legal) (h : t.moving = true) (hk : t.k + 1 = t.period) :
    t.committed t.frame := by
  have hlast := Timeline.lastStep_iff hl h
  obtain ⟨-, hstep⟩ := (Timeline.legal_iff_inStep h).1 hl
  rw [Timeline.frame_of_cycle (Timeline.cycle_commits h hk) (Timeline.values_atRest (Timeline.commit_moving t) rfl)]
  refine ⟨?position, rfl, rfl, if_congr hlast rfl rfl, if_congr hlast rfl rfl, rfl, rfl, rfl, rfl⟩
  case position =>
    change ((if t.reverse = true then t.s - 1 else t.s + 1 : Nat) : Int) = _
    split
    · have := hstep.room_reverse ‹_›
      omega
    · rfl

/-! ### The notice of a frame start (R77) -/

theorem Timeline.frameNotice_none (h : t.ends = none) (n : Fin 4) : t.frameNotice n = [] := by
  simp only [Timeline.frameNotice, h]

theorem Timeline.frameNotice_some {r : EndReason} (h : t.ends = some r) (n : Fin 4) :
    t.frameNotice n = [.timelineEnd n r t.frame.s] := by
  simp only [Timeline.frameNotice, h]

theorem Timeline.ends_stopped (h : t.state = .stopped) : t.ends = none := by simp only [Timeline.ends, h]

theorem Timeline.ends_armed (h : t.state = .armed) :
    t.ends = if t.counter ≠ 0 ∧ t.atLimit = true then some .limit else none := by simp only [Timeline.ends, h]

theorem Timeline.ends_advances (h : t.moving = true) (hk : t.k + 1 < t.period) : t.ends = none := by
  have hnot : t.commitDue = false := by simp [Timeline.commitDue, hk]
  rcases Timeline.moving_iff.1 h with h | h
  · simp [Timeline.ends, h, hnot]
  · simp only [Timeline.ends, h]

theorem Timeline.commitDue_of (h : t.moving = true) (hk : t.k + 1 = t.period) : t.commitDue = true := by
  simp [Timeline.commitDue, h, hk]

/-- Only a commit and the limit of the span end a run (R75, R76). -/
theorem Timeline.ends_none (hl : t.legal)
    (h : t.state = .stopped ∨ (t.state = .armed ∧ (t.counter = 0 ∨ ¬t.limited)) ∨
      (t.moving = true ∧ t.k + 1 < t.period)) :
    t.ends = none := by
  rcases h with h | ⟨h, hno⟩ | ⟨hm, hk⟩
  · exact Timeline.ends_stopped h
  · rw [Timeline.ends_armed h, if_neg]
    rintro ⟨hc, hat⟩
    exact hno.elim hc fun hlim => hlim ((Timeline.atLimit_iff (Timeline.legal_ranged hl).s_lt).1 hat)
  · exact Timeline.ends_advances hm hk

/-- A commit ends the run of a STEPPING timeline that it leaves with no steps; a STOPPING one was stopped by command (R76). -/
theorem Timeline.frameNotice_commit (hl : t.legal) (h : t.moving = true) (hk : t.k + 1 = t.period) (n : Fin 4) :
    t.frameNotice n =
      if t.state = .stepping ∧ t.counter = 1 ∧ t.queued = 0 then [.timelineEnd n .count t.frame.s] else [] := by
  have hlast := Timeline.lastStep_iff hl h
  rcases Timeline.moving_iff.1 h with hs | hs
  · by_cases hend : t.counter = 1 ∧ t.queued = 0
    · rw [Timeline.frameNotice_some (r := .count), if_pos ⟨hs, hend⟩]
      simp only [Timeline.ends, hs, Timeline.commitDue_of h hk, hlast, true_and, if_pos hend]
    · rw [Timeline.frameNotice_none, if_neg fun c => hend c.2]
      simp only [Timeline.ends, hs, Timeline.commitDue_of h hk, hlast, true_and, if_neg hend]
  · rw [Timeline.frameNotice_none (by simp only [Timeline.ends, hs]), if_neg (by simp [hs])]

end Frame

/-! ### FRAME_START and TIMELINE_COMMIT (R75, log 6) -/

section Steps

variable {s : State}

/-- Each timeline after FRAME_START: it has handled the frame start, here or ahead of the rest (R75, log 6). -/
theorem frameStart_timelines (order : List FramePart) (s : State) :
    ∃ t, exec (.frameStart order) s = .next t ∧
      ∀ n : Fin 4, t.timelines[n] = if FramePart.timeline n ∉ s.ahead then s.timelines[n].frame else s.timelines[n] := by
  obtain ⟨t, ht, hf⟩ := frameStart_next order s
  refine ⟨t, ht, fun n => ?_⟩
  rw [hf.timelines_eq (by simp), framed_timelines, timelineFrame_timelines, enterFrame_isAhead s (by simp),
    (frame_enterFrame s).timelines_eq (by simp)]
  rw [ite_not]
  exact if_congr (isAhead_iff s _) rfl rfl

variable {n : Fin 4}

theorem partNotices_timeline_due (hn : FramePart.timeline n ∉ s.ahead) :
    s.partNotices (.timeline n) = (s.timelines[n].frameNotice n).map fun x => (.studio, x) := by
  rw [partNotices_timeline, isAhead_eq_false hn]
  rfl

/-- The row of a commit that is due: the frame start now due is entered, and the timeline handles it ahead of the rest (log 6). -/
theorem timelineCommit_acts (h : s.timelines[n].commitDue = true) (hn : FramePart.timeline n ∉ s.ahead) :
    exec (.timelineCommit n) s = .next (s.enterFrame.timelineAhead n) := by
  have hahead : s.enterFrame.isAhead (.timeline n) = false := by
    rw [enterFrame_isAhead s (by simp), isAhead_eq_false hn]
  have hact : (s.timelines[n].commitDue && !s.isAhead (.timeline n)) = true := by rw [h, isAhead_eq_false hn]; rfl
  rw [State.timelineAhead, if_neg (Bool.eq_false_iff.1 hahead)]
  exact congrArg Host.Outcome.next (if_pos hact)

/-- The row does nothing where no commit is due (log 4). -/
theorem timelineCommit_stands (h : ¬(s.timelines[n].commitDue = true ∧ FramePart.timeline n ∉ s.ahead)) :
    exec (.timelineCommit n) s = .next s := by
  have hact : ¬(s.timelines[n].commitDue && !s.isAhead (.timeline n)) = true := by
    rwa [Bool.and_eq_true, Bool.not_eq_true', ← Bool.not_eq_true, isAhead_iff]
  exact congrArg Host.Outcome.next (if_neg hact)

/-- A timeline that handles the frame start now due ahead of the rest; the others stay (R75, log 6). -/
theorem enterFrame_timelineAhead_timelines (hn : FramePart.timeline n ∉ s.ahead) (m : Fin 4) :
    (s.enterFrame.timelineAhead n).timelines[m] = if m = n then s.timelines[m].frame else s.timelines[m] := by
  rw [timelineAhead_timelines, enterFrame_isAhead s (by simp), isAhead_eq_false hn,
    (frame_enterFrame s).timelines_eq (by simp)]
  exact if_congr (and_iff_left rfl) rfl rfl

/-- Its notice goes to the studio link, with the number of the frame that begins (R77, log 17). -/
theorem enterFrame_timelineAhead_studio (hn : FramePart.timeline n ∉ s.ahead) :
    (s.enterFrame.timelineAhead n).studio =
      (s.timelines[n].frameNotice n).foldl (fun q x => Port.notify (x.packet s.dueFrame) q) s.studio := by
  have h := timelinesAhead_studio s.enterFrame [n] (List.nodup_singleton n)
  have henter : s.enterFrame.studio = s.studio := (frame_enterFrame s).port_eq .studio (by simp)
  simpa only [List.foldl_cons, List.foldl_nil, List.flatMap_cons, List.flatMap_nil, List.append_nil,
    enterFrame_isAhead s (h := .timeline n) (by simp), isAhead_eq_false hn, Bool.false_eq_true, if_false, henter,
    enterFrame_frame, (frame_enterFrame s).timelines_eq (by simp)] using h

end Steps

/-- Settles O32: the commit of a timeline's own cycle, by its row and by FRAME_START. -/
theorem timelineCommitMoves : Obligations.TimelineCommitMoves := by
  intro s n hl hm hk hn v
  have hcommitted : v.committed v.frame := Timeline.frame_commits hl hm hk
  have hnotice := Timeline.frameNotice_commit hl hm hk n
  refine ⟨⟨_, timelineCommit_acts (Timeline.commitDue_of hm hk) hn, fun m hne => ?others, ?same, ?number, ?studio⟩,
    fun order => ?frameStart⟩
  case others => rw [enterFrame_timelineAhead_timelines hn, if_neg hne]
  case same => rwa [enterFrame_timelineAhead_timelines hn, if_pos rfl]
  case number => rw [(frame_timelineAhead _ _).timing_eq (by simp) (by simp), enterFrame_frame]
  case studio =>
    rw [enterFrame_timelineAhead_studio hn, enterFrame_timelineAhead_timelines hn, if_pos rfl, hnotice]
    split <;> rfl
  case frameStart =>
    obtain ⟨t, ht, htimelines⟩ := frameStart_timelines order s
    have hsame : t.timelines[n] = v.frame := (htimelines n).trans (if_pos hn)
    refine ⟨t, ht, hsame ▸ hcommitted, ?_⟩
    rw [partNotices_timeline_due hn, hnotice, hsame]
    split <;> rfl

/-- Settles O33: a timeline's frame start by the cases of its step cycle. -/
theorem frameStartStepsTimelines : Obligations.FrameStartStepsTimelines := by
  intro order s n hl hn v
  obtain ⟨t, ht, htimelines⟩ := frameStart_timelines order s
  have hsame : t.timelines[n] = v.frame := (htimelines n).trans (if_pos hn)
  refine ⟨t, ht, fun h => hsame.trans (Timeline.frame_stopped hl h),
    fun h hc => hsame.trans (Timeline.frame_noSteps hl h hc), fun h hc hlim => ?limit, fun h => ?silent,
    fun h hc hlim => ?begins, fun hm hk => ?advances⟩
  case limit =>
    have hframe : v.frame = _ := Timeline.frame_limit hl h hc hlim
    have hends : v.ends = some .limit := by
      rw [Timeline.ends_armed h, if_pos ⟨hc, (Timeline.atLimit_iff (Timeline.legal_ranged hl).s_lt).2 hlim⟩]
    refine ⟨hsame.trans hframe, ?_⟩
    rw [partNotices_timeline_due hn, Timeline.frameNotice_some hends, hframe]
    rfl
  case silent =>
    rw [partNotices_timeline_due hn, Timeline.frameNotice_none (Timeline.ends_none hl h)]
    rfl
  case begins =>
    rw [hsame, Timeline.frame_begins hl h hc hlim]
    exact ⟨rfl, rfl, rfl, rfl, rfl, v.stepPeriod_eq, rfl⟩
  case advances =>
    rw [hsame, Timeline.frame_advances hm hk]
    exact ⟨rfl, rfl, rfl, rfl, rfl⟩

end Sys2Proof.Machine
end

section
/-! Timelines within their ranges through every step (O35). -/

namespace Sys2Proof.Machine

/-! ### A timeline's step cycle keeps its ranges (R75, R76) -/

section Cycle

variable {t : Timeline}

/-- Legality does not bear on the values shown for the frame (R69, R78). -/
theorem Timeline.legal_of_shown {v : TimelineValues} (h : t.legal) : { t with shown := v }.legal := h

/-- Counts that are emptied leave every other range as it was (R75, R85). -/
theorem Timeline.emptied_legal (hm : t.moving = false) (h : t.legal) : { t with counter := 0, queued := 0 }.legal := by
  obtain ⟨hr, ha⟩ := (Timeline.legal_iff_atRest hm).1 h
  exact (Timeline.legal_iff_atRest (t := { t with counter := 0, queued := 0 }) hm).2
    ⟨{ hr with counter_le := Nat.zero_le _, queued_le := Nat.zero_le _, counter_of_queued := fun hq => absurd rfl hq },
      { ha with }⟩

/-- A step begins with a counter and with room in the span (R71, R75). -/
theorem Timeline.begun_legal (h : t.legal) (hm : t.moving = false) (hc : t.counter ≠ 0) (hlim : ¬t.limited) :
    { t with state := .stepping, period := t.stepPeriod, k := 1, q := t.profile 1 }.legal := by
  obtain ⟨hr, ha⟩ := (Timeline.legal_iff_atRest hm).1 h
  obtain ⟨hperiod, hperiod'⟩ := t.stepPeriod_bounds
  have hs := hr.s_lt
  refine (Timeline.legal_iff_inStep rfl).2 ⟨{ hr with period_ge := hperiod, period_le := hperiod' }, ?_⟩
  exact {
    q_le := Timeline.profile_le hr.tf_pos hr.tr_pos 1
    nextRate_le := fun r hn => nomatch ha.nextRate_eq.symm.trans hn
    k_pos := le_rfl
    k_lt := lt_of_lt_of_le (show 1 < 8 by decide) hperiod
    counter_ne := hc
    room := fun hf => lt_of_le_of_ne hs fun he => hlim (.inl ⟨hf, he⟩)
    room_reverse := fun hb he => hlim (.inr ⟨hb, he⟩) }

theorem Timeline.advanced_legal (h : t.legal) (hm : t.moving = true) (hk : t.k + 1 < t.period) :
    { t with k := t.k + 1, q := t.profile (t.k + 1) }.legal := by
  obtain ⟨hr, hi⟩ := (Timeline.legal_iff_inStep hm).1 h
  exact (Timeline.legal_iff_inStep (t := { t with k := t.k + 1, q := t.profile (t.k + 1) }) hm).2
    ⟨{ hr with }, { hi with q_le := Timeline.profile_le hr.tf_pos hr.tr_pos _, k_pos := Nat.le_add_left _ _, k_lt := hk }⟩

/-- The commit of a step that had room in the span (R76). -/
theorem Timeline.commit_legal (h : t.legal) (hm : t.moving = true) : t.commit.legal := by
  obtain ⟨hr, hi⟩ := (Timeline.legal_iff_inStep hm).1 h
  have hs : t.commit.s < t.span := by
    unfold Timeline.commit
    dsimp only
    split
    · exact (Nat.sub_le _ _).trans_lt hr.s_lt
    · exact hi.room (Bool.eq_false_iff.2 ‹_›)
  have hrate : t.commit.rate ≤ 7 := by
    change t.nextRate.getD t.rate ≤ 7
    cases hn : t.nextRate with
    | none => exact hr.rate_le
    | some r => exact hi.nextRate_le r hn
  have hcounts : t.commit.counter ≤ 15 ∧ t.commit.queued ≤ 15 ∧ (t.commit.queued ≠ 0 → t.commit.counter ≠ 0) := by
    unfold Timeline.commit
    dsimp only
    split
    · exact ⟨hr.queued_le, Nat.zero_le _, fun hq => absurd rfl hq⟩
    · exact ⟨(Nat.sub_le _ _).trans hr.counter_le, hr.queued_le, fun _ => ‹_›⟩
  obtain ⟨hcounter, hqueued, hboth⟩ := hcounts
  refine (Timeline.legal_iff_atRest (Timeline.commit_moving t)).2 ⟨?_, rfl, rfl, rfl⟩
  exact { hr with
    s_lt := hs, counter_le := hcounter, queued_le := hqueued, counter_of_queued := hboth, rate_le := hrate }

theorem Timeline.cycle_legal (h : t.legal) : t.cycle.legal := by
  cases hm : t.moving with
  | true =>
    obtain ⟨-, hi⟩ := (Timeline.legal_iff_inStep hm).1 h
    rcases Nat.lt_or_eq_of_le (Nat.succ_le_of_lt hi.k_lt) with hk | hk
    · rw [Timeline.cycle_advances hm hk]
      exact Timeline.advanced_legal h hm hk
    · rw [Timeline.cycle_commits hm hk]
      exact Timeline.commit_legal h hm
  | false =>
    rcases Timeline.moving_eq_false_iff.1 hm with hs | hs
    · rwa [Timeline.cycle_stopped hs]
    · by_cases hc : t.counter = 0
      · rwa [Timeline.cycle_noSteps hs hc]
      · have hat := Timeline.atLimit_iff (Timeline.legal_ranged h).s_lt
        cases hlim : t.atLimit with
        | true =>
          rw [Timeline.cycle_limit hs hc hlim]
          exact Timeline.emptied_legal hm h
        | false =>
          rw [Timeline.cycle_begins hs hc hlim]
          exact Timeline.begun_legal h hm hc (mt hat.2 (Bool.eq_false_iff.1 hlim))

theorem Timeline.frame_legal (h : t.legal) : t.frame.legal := Timeline.legal_of_shown (Timeline.cycle_legal h)

end Cycle

/-! ### The timeline commands keep its ranges (R80-R85) -/

section Commands

variable {t : Timeline}

/-- SET clamps its parameters and brings s within the span; no step is in progress (R80). -/
theorem Timeline.set_legal (payload : List Byte) (h : t.legal) (hm : t.moving = false) (hrate : fieldNat payload 1 1 ≤ 7) :
    (t.set payload).legal := by
  obtain ⟨hr, ha⟩ := (Timeline.legal_iff_atRest hm).1 h
  obtain ⟨hspan, hspan'⟩ := clampNat_bounds (fieldNat payload 5 1) (lo := 1) (hi := 25) (by decide)
  obtain ⟨htf, htf'⟩ := clampNat_bounds (fieldNat payload 2 1) (lo := 1) (hi := 64) (by decide)
  obtain ⟨htr, htr'⟩ := clampNat_bounds (fieldNat payload 4 1) (lo := 1) (hi := 64) (by decide)
  refine (Timeline.legal_iff_atRest (t := t.set payload) hm).2 ⟨?_, { ha with }⟩
  exact { hr with
    span_pos := hspan, span_le := hspan', s_lt := (min_le_right _ _).trans_lt (Nat.sub_lt hspan Nat.one_pos)
    rate_le := hrate, tf_pos := htf, tf_le := htf', lead_le := min_le_right _ _, tr_pos := htr, tr_le := htr' }

/-- JUMP sets s within the span (R84). -/
theorem Timeline.jumped_legal (x : Nat) (h : t.legal) (hm : t.moving = false) :
    { t with s := min x (t.span - 1) }.legal := by
  obtain ⟨hr, ha⟩ := (Timeline.legal_iff_atRest hm).1 h
  exact (Timeline.legal_iff_atRest (t := { t with s := min x (t.span - 1) }) hm).2
    ⟨{ hr with s_lt := (min_le_right _ _).trans_lt (Nat.sub_lt hr.span_pos Nat.one_pos) }, { ha with }⟩

/-- Steps wait in the pending count only behind a counter that is not empty (R81). -/
theorem Timeline.steps_legal {n : Nat} (hn : n ≤ 15) (h : t.legal) : (t.steps n).legal := by
  have hr := Timeline.legal_ranged h
  unfold Timeline.steps
  split
  case isTrue hc =>
    have hm : t.moving = false := by
      refine Bool.eq_false_iff.2 fun hm => ?_
      exact ((Timeline.legal_iff_inStep hm).1 h).2.counter_ne hc
    have hq : t.queued = 0 := not_not.1 (mt hr.counter_of_queued (not_not.2 hc))
    obtain ⟨-, ha⟩ := (Timeline.legal_iff_atRest hm).1 h
    exact (Timeline.legal_iff_atRest (t := { t with counter := n }) hm).2
      ⟨{ hr with counter_le := hn, counter_of_queued := fun hne => absurd hq hne }, { ha with }⟩
  case isFalse hc =>
    have hr' : { t with queued := n }.Ranged := { hr with queued_le := hn, counter_of_queued := fun _ => hc }
    cases hm : t.moving with
    | true =>
      obtain ⟨-, hi⟩ := (Timeline.legal_iff_inStep hm).1 h
      exact (Timeline.legal_iff_inStep (t := { t with queued := n }) hm).2 ⟨hr', { hi with }⟩
    | false =>
      obtain ⟨-, ha⟩ := (Timeline.legal_iff_atRest hm).1 h
      exact (Timeline.legal_iff_atRest (t := { t with queued := n }) hm).2 ⟨hr', { ha with }⟩

/-- RUN takes a rate code at rest, and holds it for the next step in a step (R82). -/
theorem Timeline.run_legal {rate : Option Nat} (hrate : ∀ r, rate = some r → r ≤ 7) (h : t.legal) :
    (t.run rate).legal := by
  cases hm : t.moving with
  | false =>
    obtain ⟨hr, ha⟩ := (Timeline.legal_iff_atRest hm).1 h
    have hgiven : rate.getD t.rate ≤ 7 := by
      cases rate with
      | none => exact hr.rate_le
      | some r => exact hrate r rfl
    rw [Timeline.run_idle rate (Timeline.moving_eq_false_iff.1 hm)]
    exact (Timeline.legal_iff_atRest rfl).2 ⟨{ hr with rate_le := hgiven }, { ha with }⟩
  | true =>
    obtain ⟨hr, hi⟩ := (Timeline.legal_iff_inStep hm).1 h
    have hheld : ∀ r, rate.or t.nextRate = some r → r ≤ 7 := by
      cases rate with
      | none => exact hi.nextRate_le
      | some r => exact hrate
    rw [Timeline.run_moving rate (Timeline.moving_iff.1 hm)]
    exact (Timeline.legal_iff_inStep rfl).2 ⟨{ hr with }, { hi with nextRate_le := hheld }⟩

/-- STOP lets a step in progress finish (R83). -/
theorem Timeline.stop_moving (t : Timeline) : t.stop.moving = t.moving := by
  rw [Timeline.stop_eq]
  unfold Timeline.moving
  cases t.state <;> rfl

theorem Timeline.stop_legal (h : t.legal) : t.stop.legal := by
  have hr := Timeline.legal_ranged h
  cases hm : t.moving with
  | true =>
    obtain ⟨-, hi⟩ := (Timeline.legal_iff_inStep hm).1 h
    refine (Timeline.legal_iff_inStep ((Timeline.stop_moving t).trans hm)).2 ?_
    rw [Timeline.stop_eq]
    exact ⟨{ hr with }, { hi with }⟩
  | false =>
    obtain ⟨-, ha⟩ := (Timeline.legal_iff_atRest hm).1 h
    refine (Timeline.legal_iff_atRest ((Timeline.stop_moving t).trans hm)).2 ?_
    rw [Timeline.stop_eq]
    exact ⟨{ hr with }, { ha with }⟩

end Commands

/-! ### Every command keeps the timelines within their ranges -/

/-- Every timeline is within the ranges of Table 5-1 (R69, R70). -/
abbrev State.timelinesLegal (s : State) : Prop := ∀ n : Fin 4, s.timelines[n].legal

theorem State.timelinesLegal_congr {s t : State} (h : t.timelines = s.timelines) (hl : s.timelinesLegal) :
    t.timelinesLegal := fun n => by
  rw [h]
  exact hl n

theorem reads_timelinesLegal : Reads [.timelines] State.timelinesLegal := fun s t h hl =>
  State.timelinesLegal_congr (show t.timelines = s.timelines from h .timelines (by simp)) hl

/-- An index argument is outside 0..3, or it names one of four (R2). -/
theorem four_le_or_eq_fin (x : Nat) : 4 ≤ x ∨ ∃ n : Fin 4, x = n.val :=
  (Nat.lt_or_ge x 4).symm.imp_right fun h => ⟨⟨x, h⟩, rfl⟩

section Owners

variable (p : Packet) {s : State}

theorem finish_timelinesLegal (l : Link) (st : Status) (result : List Byte) (hl : s.timelinesLegal) :
    (s.finish l st result).timelinesLegal := State.timelinesLegal_congr (s.finish_timelines l st result) hl

theorem answerTimeline_timelinesLegal (l : Link) {n : Fin 4} {v : Timeline} (adjusted : Bool) (hl : s.timelinesLegal)
    (hv : v.legal) : (s.answerTimeline l n v adjusted).timelinesLegal := by
  refine finish_timelinesLegal _ _ _ fun m => ?_
  by_cases hm : m = n
  · subst hm
    rwa [State.setTimeline_same]
  · rw [State.setTimeline_other _ hm]
    exact hl m

theorem ownTimelineSet_timelinesLegal (hl : s.timelinesLegal) : (ownTimelineSet p s).timelinesLegal := by
  obtain h | ⟨n, hn⟩ := four_le_or_eq_fin p.arg.toNat
  · rw [ownTimelineSet_outside h]
    exact finish_timelinesLegal _ _ _ hl
  · cases hm : s.timelines[n].moving with
    | true =>
      rw [ownTimelineSet_moving hn hm]
      exact finish_timelinesLegal _ _ _ hl
    | false =>
      rcases Nat.lt_or_ge 7 (fieldNat p.payload 1 1) with hr | hr
      · rw [ownTimelineSet_badRate hn hm hr]
        exact finish_timelinesLegal _ _ _ hl
      · rw [ownTimelineSet_stored hn hm hr]
        exact answerTimeline_timelinesLegal _ _ hl (Timeline.set_legal _ (hl n) hm hr)

theorem ownTimelineJump_timelinesLegal (hl : s.timelinesLegal) : (ownTimelineJump p s).timelinesLegal := by
  obtain h | ⟨n, hn⟩ := four_le_or_eq_fin p.arg.toNat
  · rw [ownTimelineJump_outside h]
    exact finish_timelinesLegal _ _ _ hl
  · cases hm : s.timelines[n].moving with
    | true =>
      rw [ownTimelineJump_moving hn hm]
      exact finish_timelinesLegal _ _ _ hl
    | false =>
      rw [ownTimelineJump_stored hn hm]
      exact answerTimeline_timelinesLegal _ _ hl (Timeline.jumped_legal _ (hl n) hm)

theorem ownTimelineClear_timelinesLegal (hl : s.timelinesLegal) : (ownTimelineClear p s).timelinesLegal := by
  obtain h | ⟨n, hn⟩ := four_le_or_eq_fin p.arg.toNat
  · rw [ownTimelineClear_outside h]
    exact finish_timelinesLegal _ _ _ hl
  · cases hm : s.timelines[n].moving with
    | true =>
      rw [ownTimelineClear_moving hn hm]
      exact finish_timelinesLegal _ _ _ hl
    | false =>
      rw [ownTimelineClear_stored hn hm]
      exact answerTimeline_timelinesLegal _ _ hl (Timeline.emptied_legal hm (hl n))

theorem ownTimelineSteps_timelinesLegal (hl : s.timelinesLegal) : (ownTimelineSteps p s).timelinesLegal := by
  obtain h | ⟨n, hn⟩ := four_le_or_eq_fin p.arg.toNat
  · rw [ownTimelineSteps_outside h]
    exact finish_timelinesLegal _ _ _ hl
  · rw [ownTimelineSteps_stored hn]
    exact answerTimeline_timelinesLegal _ _ hl (Timeline.steps_legal (min_le_right _ _) (hl n))

/-- A RUN that is accepted gives a rate code of 0..7, or none (R82). -/
theorem runRate_le {payload : List Byte} (h : payload = [] ∨ fieldNat payload 0 1 ≤ 7) :
    ∀ r, runRate payload = some r → r ≤ 7 := by
  intro r hr
  rcases h with rfl | h
  · nomatch hr
  · by_cases he : payload = []
    · subst he
      nomatch hr
    · obtain rfl : fieldNat payload 0 1 = r := by simpa [runRate, he] using hr
      exact h

theorem ownTimelineRun_timelinesLegal (hl : s.timelinesLegal) : (ownTimelineRun p s).timelinesLegal := by
  obtain h | ⟨n, hn⟩ := four_le_or_eq_fin p.arg.toNat
  · rw [ownTimelineRun_outside h]
    exact finish_timelinesLegal _ _ _ hl
  · by_cases hr : p.payload = [] ∨ fieldNat p.payload 0 1 ≤ 7
    · rw [ownTimelineRun_stored hn hr]
      exact answerTimeline_timelinesLegal _ _ hl (Timeline.run_legal (runRate_le hr) (hl n))
    · obtain ⟨hp, hr⟩ := not_or.1 hr
      rw [ownTimelineRun_badRate hn hp (Nat.not_le.1 hr)]
      exact finish_timelinesLegal _ _ _ hl

theorem ownTimelineStop_timelinesLegal (hl : s.timelinesLegal) : (ownTimelineStop p s).timelinesLegal := by
  obtain h | ⟨n, hn⟩ := four_le_or_eq_fin p.arg.toNat
  · rw [ownTimelineStop_outside h]
    exact finish_timelinesLegal _ _ _ hl
  · rw [ownTimelineStop_stored hn]
    exact answerTimeline_timelinesLegal _ _ hl (Timeline.stop_legal (hl n))

end Owners

/-- Timelines of which each stands or has handled a frame start (R75, log 6). -/
theorem State.timelinesLegal_framed {s t : State} {P : Fin 4 → Prop} [DecidablePred P] (hl : s.timelinesLegal)
    (h : ∀ n : Fin 4, t.timelines[n] = if P n then s.timelines[n].frame else s.timelines[n]) : t.timelinesLegal := by
  intro n
  rw [h]
  split
  · exact Timeline.frame_legal (hl n)
  · exact hl n

theorem keepsTimelinesLegal_frameStart (order : List FramePart) : Keeps State.timelinesLegal (.frameStart order) :=
  fun s hl => by
    obtain ⟨t, ht, htimelines⟩ := frameStart_timelines order s
    exact ⟨t, ht, State.timelinesLegal_framed hl htimelines⟩

theorem keepsTimelinesLegal_flip (f : Fin 4) : Keeps State.timelinesLegal (.flip f) := fun s hl => by
  by_cases hdue : s.flipDue f
  · exact ⟨_, flip_acts hdue, State.timelinesLegal_framed hl (flipAhead_timelines s f)⟩
  · exact ⟨s, flip_stands hdue, hl⟩

theorem keepsTimelinesLegal_timelineCommit (n : Fin 4) : Keeps State.timelinesLegal (.timelineCommit n) := fun s hl => by
  by_cases hdue : s.timelines[n].commitDue = true ∧ FramePart.timeline n ∉ s.ahead
  · obtain ⟨hcommit, hn⟩ := hdue
    exact ⟨_, timelineCommit_acts hcommit hn,
      State.timelinesLegal_framed hl (enterFrame_timelineAhead_timelines hn)⟩
  · exact ⟨s, timelineCommit_stands hdue, hl⟩

theorem keepsTimelinesLegal_powerOnReset (high : Bool) : Keeps State.timelinesLegal (.powerOnReset high) := fun _ _ => by
  refine ⟨_, rfl, fun n => ?_⟩
  have hreset : State.reset.timelines[n] = Timeline.reset := Vector.getElem_replicate n.isLt
  change State.reset.timelines[n].legal
  rw [hreset]
  exact Timeline.reset_legal

/-- A packet command of the timeline unit, whose owner keeps the timelines legal. -/
theorem keepsTimelinesLegal_packet {c : Instr} {k : Kind} {p : Packet} {own : Packet → State → State}
    (hc : ∀ s, exec c s = .next (serve k p own s)) (h : ∀ s, s.timelinesLegal → (own p s).timelinesLegal) :
    Keeps State.timelinesLegal c := keeps_packet reads_timelinesLegal (by simp [packetBlocks]) hc h

theorem keepsTimelinesLegal (c : Instr) : Keeps State.timelinesLegal c := by
  cases c with
  | powerOnReset high => exact keepsTimelinesLegal_powerOnReset high
  | frameStart order => exact keepsTimelinesLegal_frameStart order
  | flip f => exact keepsTimelinesLegal_flip f
  | timelineCommit n => exact keepsTimelinesLegal_timelineCommit n
  | timelineSet p => exact keepsTimelinesLegal_packet (fun _ => rfl) fun _ => ownTimelineSet_timelinesLegal p
  | timelineSteps p => exact keepsTimelinesLegal_packet (fun _ => rfl) fun _ => ownTimelineSteps_timelinesLegal p
  | timelineRun p => exact keepsTimelinesLegal_packet (fun _ => rfl) fun _ => ownTimelineRun_timelinesLegal p
  | timelineStop p => exact keepsTimelinesLegal_packet (fun _ => rfl) fun _ => ownTimelineStop_timelinesLegal p
  | timelineJump p => exact keepsTimelinesLegal_packet (fun _ => rfl) fun _ => ownTimelineJump_timelinesLegal p
  | timelineClear p => exact keepsTimelinesLegal_packet (fun _ => rfl) fun _ => ownTimelineClear_timelinesLegal p
  | _ => exact keeps_untouched reads_timelinesLegal (by simp [touched, packetBlocks])

end Sys2Proof.Machine
end

section
/-! Blink generators within their ranges through every step (O35). -/

namespace Sys2Proof.Machine

/-! ### One generator keeps its ranges (R88, R90) -/

section Generator

variable {b : Blink}

/-- At the end of its cycle a generator takes up a pair that is itself within the ranges (R88). -/
theorem Blink.cycled_legal (h : b.legal) : b.cycled.legal := by
  obtain ⟨hperiod, hperiod', hon, hon', -, hstaged, -⟩ := h
  have hpair : 2 ≤ b.cycled.period ∧ b.cycled.period ≤ 255 ∧ 1 ≤ b.cycled.onCount ∧
      b.cycled.onCount < b.cycled.period := by
    unfold Blink.cycled
    cases hs : b.staged with
    | none => exact ⟨hperiod, hperiod', hon, hon'⟩
    | some pair => exact hstaged pair.1 pair.2 hs
  obtain ⟨hp, hp', hc, hc'⟩ := hpair
  exact ⟨hp, hp', hc, hc', Nat.zero_lt_of_lt hp, fun _ _ hn => (nomatch hn), fun _ => ⟨rfl, rfl⟩⟩

theorem Blink.frame_legal (start : Nat) (h : b.legal) : (b.frame start).legal := by
  cases he : b.enabled with
  | false =>
    rw [Blink.frame_disabled start h he]
    exact h
  | true =>
    by_cases hc : b.counter + 1 = b.period
    · rw [Blink.frame_cycleEnd start h he hc]
      exact Blink.cycled_legal h
    · rw [Blink.frame_counts start h he hc]
      obtain ⟨hperiod, hperiod', hon, hon', hbelow, hstaged, -⟩ := h
      exact ⟨hperiod, hperiod', hon, hon', lt_of_le_of_ne hbelow hc, hstaged, fun hd => nomatch he.symm.trans hd⟩

/-- BLINK SET stages or applies a pair within the ranges (R90). -/
theorem Blink.set_legal {period onCount : Nat} (enable : Bool) (now : Nat) (h : b.legal) (hp : 2 ≤ period)
    (hp' : period ≤ 255) (hc : 1 ≤ onCount) (hc' : onCount < period) : (b.set period onCount enable now).legal := by
  rw [Blink.set_eq]
  split
  case isTrue =>
    obtain ⟨hperiod, hperiod', hon, hon', hbelow, -, hdisabled⟩ := h
    refine ⟨hperiod, hperiod', hon, hon', hbelow, fun x y hxy => ?_, hdisabled⟩
    obtain ⟨rfl, rfl⟩ : period = x ∧ onCount = y := by simpa using hxy
    exact ⟨hp, hp', hc, hc'⟩
  case isFalse =>
    exact ⟨hp, hp', hc, hc', Nat.zero_lt_of_lt hp, fun _ _ hn => (nomatch hn), fun _ => ⟨rfl, rfl⟩⟩

end Generator

/-! ### Every command keeps the generators within their ranges -/

/-- Every blink generator is within the ranges of Table 5-7 (R88). -/
abbrev State.blinksLegal (s : State) : Prop := ∀ b : Fin 4, s.blinks[b].legal

theorem State.blinksLegal_congr {s t : State} (h : t.blinks = s.blinks) (hl : s.blinksLegal) : t.blinksLegal := fun b => by
  rw [h]
  exact hl b

theorem reads_blinksLegal : Reads [.blinks] State.blinksLegal := fun s t h hl =>
  State.blinksLegal_congr (show t.blinks = s.blinks from h .blinks (by simp)) hl

theorem setBlink_blinksLegal {s : State} {n : Fin 4} {v : Blink} (hl : s.blinksLegal) (hv : v.legal) :
    (s.setBlink n v).blinksLegal := fun m => by
  by_cases hm : m = n
  · subst hm
    rwa [State.setBlink_same]
  · rw [State.setBlink_other _ hm]
    exact hl m

theorem finish_blinksLegal {s : State} (l : Link) (st : Status) (result : List Byte) (hl : s.blinksLegal) :
    (s.finish l st result).blinksLegal := State.blinksLegal_congr (s.finish_blinks l st result) hl

theorem ownBlinkSet_blinksLegal (p : Packet) {s : State} (hl : s.blinksLegal) : (ownBlinkSet p s).blinksLegal := by
  obtain h | ⟨n, hn⟩ := four_le_or_eq_fin p.arg.toNat
  · rw [ownBlinkSet_outside h]
    exact finish_blinksLegal _ _ _ hl
  · obtain ⟨hp, hp'⟩ : 2 ≤ blinkPeriod p ∧ blinkPeriod p ≤ 255 := clampNat_bounds _ (by decide)
    obtain ⟨hc, hc'⟩ : 1 ≤ blinkOnCount p ∧ blinkOnCount p ≤ blinkPeriod p - 1 :=
      clampNat_bounds _ (Nat.le_sub_one_of_lt hp)
    rw [ownBlinkSet_stored hn]
    exact finish_blinksLegal _ _ _
      (setBlink_blinksLegal hl (Blink.set_legal _ _ (hl n) hp hp' hc (Nat.lt_of_le_sub_one (by omega) hc')))

theorem keepsBlinksLegal_frameStart (order : List FramePart) : Keeps State.blinksLegal (.frameStart order) := fun s hl => by
  obtain ⟨t, ht, hf⟩ := frameStart_next order s
  refine ⟨t, ht, fun b => ?_⟩
  rw [hf.blinks_eq (by simp), framed_blinks, blinkFrame_blinks, (frame_enterFrame s).blinks_eq (by simp)]
  split
  · exact hl b
  · exact Blink.frame_legal _ (hl b)

theorem keepsBlinksLegal_blinkCycleEnd (b : Fin 4) : Keeps State.blinksLegal (.blinkCycleEnd b) := fun s hl => by
  have hentered : s.enterFrame.blinksLegal := State.blinksLegal_congr ((frame_enterFrame s).blinks_eq (by simp)) hl
  refine ⟨_, rfl, ?_⟩
  split
  · exact State.blinksLegal_congr (State.markAhead_blinks _ _)
      (setBlink_blinksLegal hentered (Blink.frame_legal _ (hentered b)))
  · exact hl

theorem keepsBlinksLegal_powerOnReset (high : Bool) : Keeps State.blinksLegal (.powerOnReset high) := fun _ _ => by
  refine ⟨_, rfl, fun b => ?_⟩
  have hreset : State.reset.blinks[b] = Blink.reset := Vector.getElem_replicate b.isLt
  change State.reset.blinks[b].legal
  rw [hreset]
  exact Blink.reset_legal

theorem keepsBlinksLegal (c : Instr) : Keeps State.blinksLegal c := by
  cases c with
  | powerOnReset high => exact keepsBlinksLegal_powerOnReset high
  | frameStart order => exact keepsBlinksLegal_frameStart order
  | blinkCycleEnd b => exact keepsBlinksLegal_blinkCycleEnd b
  | blinkSet p =>
    exact keeps_packet reads_blinksLegal (by simp [packetBlocks]) (fun _ => rfl) fun _ => ownBlinkSet_blinksLegal p
  | _ => exact keeps_untouched reads_blinksLegal (by simp [touched, packetBlocks])

/-- Settles O35: every command keeps the timelines and the generators legal, and a step on an empty queue leaves them. -/
theorem timelinesLegalKept : Obligations.TimelinesLegalKept := fun _ _ htimelines hblinks hstep =>
  ⟨step_keeps reads_timelinesLegal (by simp) (by simp) keepsTimelinesLegal htimelines hstep,
    step_keeps reads_blinksLegal (by simp) (by simp) keepsBlinksLegal hblinks hstep⟩

end Sys2Proof.Machine
end

section
/-! The blend (O37). -/

namespace Sys2Proof.Machine

/-! ### The blend as a rounded value (R94) -/

/-- The blend is the one integer within half a unit of the exact weighted value, an exact half rounded upward. -/
theorem blend_eq_iff {a b x : Int} {w : Nat} : blend a b w = x ↔
    256 * x ≤ 256 * a + (b - a) * (w : Int) + 128 ∧ 256 * a + (b - a) * (w : Int) < 256 * x + 128 := by
  unfold blend
  omega

theorem blend_rounded (a b : Int) (w : Nat) : 256 * blend a b w ≤ 256 * a + (b - a) * (w : Int) + 128 ∧
    256 * a + (b - a) * (w : Int) < 256 * blend a b w + 128 :=
  blend_eq_iff.1 rfl

theorem blend_zero (a b : Int) : blend a b 0 = a := blend_eq_iff.2 (by omega)

theorem blend_full (a b : Int) : blend a b 256 = b := blend_eq_iff.2 (by omega)

theorem blend_self (a : Int) (w : Nat) : blend a a w = a := blend_eq_iff.2 (by simp)

/-- Both ends name one exact weighted value: a + (b - a) w / 256 = b + (a - b) (256 - w) / 256. -/
theorem blend_swap (a b : Int) {w : Nat} (hw : w ≤ 256) : blend a b w = blend b a (256 - w) := by
  have exact_eq : 256 * b + (a - b) * ((256 - w : Nat) : Int) = 256 * a + (b - a) * (w : Int) := by
    rw [Nat.cast_sub hw]
    push_cast
    ring
  rw [blend_eq_iff, ← exact_eq]
  exact blend_rounded b a (256 - w)

/-- A blend of two ordered ends stays between them. -/
theorem blend_between {a b : Int} {w : Nat} (hab : a ≤ b) (hw : w ≤ 256) : a ≤ blend a b w ∧ blend a b w ≤ b := by
  have above : 0 ≤ (b - a) * (w : Int) := Int.mul_nonneg (by omega) (by omega)
  have below : (b - a) * (w : Int) ≤ (b - a) * 256 := Int.mul_le_mul_of_nonneg_left (by omega) (by omega)
  have rounded := blend_rounded a b w
  omega

theorem blend_within {a b lo hi : Int} {w : Nat} (hw : w ≤ 256) (ha : lo ≤ a ∧ a ≤ hi) (hb : lo ≤ b ∧ b ≤ hi) :
    lo ≤ blend a b w ∧ blend a b w ≤ hi := by
  rcases le_total a b with hab | hba
  · have between := blend_between hab hw
    omega
  · have between := blend_between hba (Nat.sub_le 256 w)
    rw [← blend_swap a b hw] at between
    omega

/-- Settles O37, from the blend as the rounded value. -/
theorem blendIsTheRoundedValue : Obligations.BlendIsTheRoundedValue := fun a b w hw => by
  obtain ⟨hlo, hhi⟩ := blend_within hw (lo := min a b) (hi := max a b) ⟨min_le_left a b, le_max_left a b⟩
    ⟨min_le_right a b, le_max_right a b⟩
  obtain ⟨hbelow, habove⟩ := blend_rounded a b w
  have formula : blend a b w = a + Int.fdiv ((b - a) * (w : Int) + 128) 256 := by
    rw [blend, Int.fdiv_eq_ediv_of_nonneg _ (by decide)]
  exact ⟨formula, blend_zero a b, blend_full a b, hlo, hhi, hbelow, habove, blend_swap a b hw, blend_self a w⟩

end Sys2Proof.Machine
end

section
/-! Magnitude and sector (O38). -/

namespace Sys2Proof.Machine

/-! ### The magnitude (R100) -/

theorem magnitude_eq_zero_iff {u v : Int} : magnitude u v = 0 ↔ u = 0 ∧ v = 0 := by
  unfold magnitude
  omega

/-! ### The offset from the nearer axis (R101) -/

/-- The sector offset j of a vector from the axis nearer to it. -/
def nearOffset (u v : Int) : Nat := axisOffset (max u.natAbs v.natAbs) (min u.natAbs v.natAbs)

theorem axisOffset_le (major minor : Nat) : axisOffset major minor ≤ 4 := by
  unfold axisOffset
  split_ifs <;> decide

theorem nearOffset_le (u v : Int) : nearOffset u v ≤ 4 := axisOffset_le _ _

theorem nearOffset_neg (u v : Int) : nearOffset (-u) (-v) = nearOffset u v := by
  simp [nearOffset]

theorem axisOffset_zero {major : Nat} (h : 0 < major) : axisOffset major 0 = 0 := if_pos (by omega)

theorem nearOffset_vertical {v : Int} (h : v ≠ 0) : nearOffset 0 v = 0 := by
  simpa [nearOffset] using axisOffset_zero (Int.natAbs_pos.2 h)

theorem nearOffset_horizontal {u : Int} (h : u ≠ 0) : nearOffset u 0 = 0 := by
  simpa [nearOffset] using axisOffset_zero (Int.natAbs_pos.2 h)

/-! ### The sector by quadrant (R102, Table 6-5) -/

theorem sectorOf_eq_none_iff {u v : Int} : sectorOf u v = none ↔ u = 0 ∧ v = 0 := by
  simp [sectorOf]

section Quadrants

variable {u v : Int}

theorem sectorOf_upRight (hu : 0 ≤ u) (hv : 0 ≤ v) (h : ¬(u = 0 ∧ v = 0)) :
    sectorOf u v = some (if v.natAbs ≤ u.natAbs then 8 - nearOffset u v else nearOffset u v) := by
  simp [sectorOf, nearOffset, h, hu, hv]

theorem sectorOf_downRight (hu : 0 ≤ u) (hv : v < 0) :
    sectorOf u v = some (if v.natAbs ≤ u.natAbs then 8 + nearOffset u v else 16 - nearOffset u v) := by
  simp [sectorOf, nearOffset, hv.ne, hu, hv.not_ge]

theorem sectorOf_downLeft (hu : u < 0) (hv : v < 0) :
    sectorOf u v = some (if v.natAbs ≤ u.natAbs then 24 - nearOffset u v else 16 + nearOffset u v) := by
  simp [sectorOf, nearOffset, hu.ne, hu.not_ge, hv]

theorem sectorOf_upLeft (hu : u < 0) (hv : 0 ≤ v) :
    sectorOf u v = some (if v.natAbs ≤ u.natAbs then 24 + nearOffset u v else (32 - nearOffset u v) % 32) := by
  simp [sectorOf, nearOffset, hu.ne, hu.not_ge, hv.not_gt]

theorem sectorOf_lt {k : Nat} (h : sectorOf u v = some k) : k < 32 := by
  have hj := nearOffset_le u v
  rcases lt_or_ge u 0 with hu | hu <;> rcases lt_or_ge v 0 with hv | hv
  · rw [sectorOf_downLeft hu hv, Option.some.injEq] at h
    grind
  · rw [sectorOf_upLeft hu hv, Option.some.injEq] at h
    grind
  · rw [sectorOf_downRight hu hv, Option.some.injEq] at h
    grind
  · have hne : ¬(u = 0 ∧ v = 0) := fun hzero => by simp [sectorOf_eq_none_iff.2 hzero] at h
    rw [sectorOf_upRight hu hv hne, Option.some.injEq] at h
    grind

end Quadrants

/-! ### The four axes -/

section Axes

variable {x : Int}

theorem sectorOf_up (h : 0 < x) : sectorOf 0 x = some 0 := by
  rw [sectorOf_upRight le_rfl h.le (by omega), nearOffset_vertical h.ne', if_neg (by omega)]

theorem sectorOf_right (h : 0 < x) : sectorOf x 0 = some 8 := by
  rw [sectorOf_upRight h.le le_rfl (by omega), nearOffset_horizontal h.ne', if_pos (by omega)]

theorem sectorOf_down (h : 0 < x) : sectorOf 0 (-x) = some 16 := by
  rw [sectorOf_downRight le_rfl (by omega), nearOffset_vertical (by omega), if_neg (by omega)]

theorem sectorOf_left (h : 0 < x) : sectorOf (-x) 0 = some 24 := by
  rw [sectorOf_upLeft (by omega) le_rfl, nearOffset_horizontal (by omega), if_pos (by omega)]

end Axes

/-! ### Opposite vectors -/

/-- The sector opposite a sector. -/
def oppositeSector (k : Nat) : Nat := (k + 16) % 32

theorem oppositeSector_oppositeSector {k : Nat} (h : k < 32) : oppositeSector (oppositeSector k) = k := by
  unfold oppositeSector
  omega

/-- A vector that points right, or straight up, and its opposite. -/
theorem sectorOf_neg_of_right {u v : Int} (h : 0 < u ∨ u = 0 ∧ 0 < v) :
    sectorOf (-u) (-v) = (sectorOf u v).map oppositeSector := by
  rcases h with hu | ⟨rfl, hv⟩
  · have hj := nearOffset_le u v
    rcases lt_trichotomy v 0 with hv | rfl | hv
    · rw [sectorOf_upLeft (by omega) (by omega), sectorOf_downRight hu.le hv, nearOffset_neg, Int.natAbs_neg, Int.natAbs_neg]
      grind [oppositeSector]
    · rw [Int.neg_zero, sectorOf_left hu, sectorOf_right hu]
      rfl
    · rw [sectorOf_downLeft (by omega) (by omega), sectorOf_upRight hu.le hv.le (by omega), nearOffset_neg, Int.natAbs_neg,
        Int.natAbs_neg]
      grind [oppositeSector]
  · rw [Int.neg_zero, sectorOf_down hv, sectorOf_up hv]
    rfl

theorem sectorOf_neg {u v : Int} {k : Nat} (h : sectorOf u v = some k) : sectorOf (-u) (-v) = some (oppositeSector k) := by
  by_cases hright : 0 < u ∨ u = 0 ∧ 0 < v
  · rw [sectorOf_neg_of_right hright, h, Option.map_some]
  · have hne : ¬(u = 0 ∧ v = 0) := fun hzero => by simp [sectorOf_eq_none_iff.2 hzero] at h
    have hback : sectorOf u v = (sectorOf (-u) (-v)).map oppositeSector := by
      simpa using sectorOf_neg_of_right (u := -u) (v := -v) (by omega)
    rw [h, eq_comm, Option.map_eq_some_iff] at hback
    obtain ⟨m, hm, rfl⟩ := hback
    rw [hm, oppositeSector_oppositeSector (sectorOf_lt hm)]

/-- Settles O38: the magnitude, the sector and its opposite by quadrant, and the four axes. -/
theorem sectorsAndMagnitude : Obligations.SectorsAndMagnitude :=
  ⟨fun _ _ => ⟨rfl, magnitude_eq_zero_iff, sectorOf_eq_none_iff, fun _ hk => ⟨sectorOf_lt hk, sectorOf_neg hk⟩⟩,
    fun _ hv => ⟨sectorOf_up hv, sectorOf_right hv, sectorOf_down hv, sectorOf_left hv⟩⟩

end Sys2Proof.Machine
end

section
/-! Glyph records (O39). -/

namespace Sys2Proof.Machine

/-! ### The wind barb (R104, R105) -/

theorem barbSpeed_eq_zero_iff {m : Nat} : barbSpeed m = 0 ↔ m < 25 := by
  unfold barbSpeed
  omega

/-- Pennants of 50 knots, full barbs of 10 and a half barb of 5 make up the barb speed, with nothing left over (R105). -/
theorem barbSpeed_parts (m : Nat) :
    50 * (barbSpeed m / 50) + 10 * (barbSpeed m % 50 / 10) + 5 * (barbSpeed m % 50 % 10 / 5) = barbSpeed m ∧
      barbSpeed m / 50 ≤ 3 ∧ barbSpeed m % 50 / 10 ≤ 4 ∧ barbSpeed m % 50 % 10 / 5 ≤ 1 := by
  have held : barbSpeed m ≤ 150 := min_le_right _ _
  have fives : barbSpeed m % 5 = 0 := by
    unfold barbSpeed
    omega
  omega

section Glyphs

variable {u v : Int}

theorem sectorOf_some_of_magnitude (h : magnitude u v ≠ 0) : ∃ k, sectorOf u v = some k :=
  Option.ne_none_iff_exists'.1 fun hnone => h (magnitude_eq_zero_iff.2 (sectorOf_eq_none_iff.1 hnone))

theorem barbGlyph_of_lt (h : magnitude u v < 25) : barbGlyph u v = .calm := by
  simp [barbGlyph, barbSpeed_eq_zero_iff.2 h]

/-- From a magnitude of 25 on the node has a barb on the side that the wind comes from. -/
theorem barbGlyph_of_le (h : 25 ≤ magnitude u v) : ∃ k, sectorOf u v = some k ∧
    barbGlyph u v = .wind (oppositeSector k) (barbSpeed (magnitude u v) / 50) (barbSpeed (magnitude u v) % 50 / 10)
      (barbSpeed (magnitude u v) % 50 % 10 / 5) := by
  obtain ⟨k, hk⟩ := sectorOf_some_of_magnitude (u := u) (v := v) (by omega)
  obtain ⟨r, hspeed⟩ := Nat.exists_eq_succ_of_ne_zero (barbSpeed_eq_zero_iff.not.2 h.not_gt)
  refine ⟨k, hk, ?_⟩
  simp [barbGlyph, hk, hspeed, oppositeSector]

theorem barbGlyph_eq_calm_iff : barbGlyph u v = .calm ↔ magnitude u v < 25 := by
  refine ⟨fun hcalm => ?_, barbGlyph_of_lt⟩
  by_contra hlt
  obtain ⟨k, -, hwind⟩ := barbGlyph_of_le (Nat.le_of_not_lt hlt)
  simp [hwind] at hcalm

theorem barbGlyph_wind {src pennants full half : Nat} (h : barbGlyph u v = .wind src pennants full half) :
    50 * pennants + 10 * full + 5 * half = barbSpeed (magnitude u v) ∧ pennants ≤ 3 ∧ full ≤ 4 ∧ half ≤ 1 ∧
      ∃ k, sectorOf u v = some k ∧ src = oppositeSector k := by
  have hle : 25 ≤ magnitude u v := Nat.le_of_not_lt fun hlt => by simp [barbGlyph_of_lt hlt] at h
  obtain ⟨k, hk, hwind⟩ := barbGlyph_of_le hle
  obtain ⟨rfl, rfl, rfl, rfl⟩ := BarbGlyph.wind.inj (hwind.symm.trans h)
  obtain ⟨hsum, hpennants, hfull, hhalf⟩ := barbSpeed_parts (magnitude u v)
  exact ⟨hsum, hpennants, hfull, hhalf, k, hk, rfl⟩

/-! ### The stream arrow (R106, R107) -/

variable {gain threshold : Nat}

theorem arrowGlyph_of_slack (h : magnitude u v < threshold ∨ (u = 0 ∧ v = 0)) : arrowGlyph u v gain threshold = .slack := by
  rcases h with hlt | hzero
  · unfold arrowGlyph
    split
    · rfl
    · exact if_pos hlt
  · simp [arrowGlyph, sectorOf_eq_none_iff.2 hzero]

theorem arrowGlyph_of_flow {k : Nat} (h : threshold ≤ magnitude u v) (hk : sectorOf u v = some k) :
    arrowGlyph u v gain threshold =
      .flowing k (clampNat (magnitude u v * gain / 256) 6 60) (decide (60 < magnitude u v * gain / 256)) := by
  simp [arrowGlyph, hk, h.not_gt]

/-- A node either is slack, or reaches the threshold and has a sector. -/
theorem slack_or_flow (u v : Int) (threshold : Nat) : (magnitude u v < threshold ∨ (u = 0 ∧ v = 0)) ∨
    threshold ≤ magnitude u v ∧ ∃ k, sectorOf u v = some k := by
  by_cases h : magnitude u v < threshold ∨ (u = 0 ∧ v = 0)
  · exact .inl h
  · obtain ⟨hle, hne⟩ := not_or.1 h
    exact .inr ⟨Nat.le_of_not_lt hle, Option.ne_none_iff_exists'.1 (sectorOf_eq_none_iff.not.2 hne)⟩

theorem arrowGlyph_eq_slack_iff :
    arrowGlyph u v gain threshold = .slack ↔ magnitude u v < threshold ∨ (u = 0 ∧ v = 0) := by
  refine ⟨fun hslack => ?_, arrowGlyph_of_slack⟩
  rcases slack_or_flow u v threshold with hs | ⟨hle, k, hk⟩
  · exact hs
  · simp [arrowGlyph_of_flow hle hk] at hslack

theorem arrowGlyph_flowing {k l : Nat} {big : Bool} (h : arrowGlyph u v gain threshold = .flowing k l big) :
    sectorOf u v = some k ∧ l = clampNat (magnitude u v * gain / 256) 6 60 ∧
      (big = true ↔ 60 < magnitude u v * gain / 256) := by
  rcases slack_or_flow u v threshold with hs | ⟨hle, m, hm⟩
  · simp [arrowGlyph_of_slack hs] at h
  · obtain ⟨rfl, rfl, rfl⟩ := ArrowGlyph.flowing.inj ((arrowGlyph_of_flow hle hm).symm.trans h)
    exact ⟨hm, rfl, decide_eq_true_iff⟩

end Glyphs

/-- Settles O39: each kind of node by its two cases, and what its record says in the second. -/
theorem glyphRecordsFollowTheVector : Obligations.GlyphRecordsFollowTheVector := fun _ _ =>
  ⟨⟨barbGlyph_eq_calm_iff, fun _ _ _ _ => barbGlyph_wind⟩,
    fun _ _ => ⟨arrowGlyph_eq_slack_iff, fun _ _ _ => arrowGlyph_flowing⟩⟩

end Sys2Proof.Machine
end

section
/-! Heights and shade indices (O40). -/

namespace Sys2Proof.Machine

/-! ### The cell of a point (R97) -/

/-- Along an axis of at least two nodes, a point up to the last node has a cell with a node on either side and a weight up to 256. -/
theorem axisCell_bounds {off spacing count : Nat} (hs : 1 ≤ spacing) (hc : 2 ≤ count) (hoff : off ≤ (count - 1) * spacing) :
    (axisCell off spacing count).1 + 1 < count ∧ (axisCell off spacing count).2 ≤ 256 := by
  have node_lt : min (off / spacing) (count - 2) + 1 < count := by omega
  have inside : off - min (off / spacing) (count - 2) * spacing ≤ spacing := by
    rcases Nat.le_total (off / spacing) (count - 2) with hle | hle
    · rw [min_eq_left hle, ← Nat.mod_eq_sub_div_mul]
      exact (Nat.mod_lt off hs).le
    · have hlast : (count - 1) * spacing = (count - 2) * spacing + spacing := by
        rw [← Nat.succ_mul]
        congr 1
        omega
      rw [min_eq_right hle]
      omega
  exact ⟨node_lt, Nat.div_le_of_le_mul (Nat.mul_le_mul_right 256 inside)⟩

theorem Geometry.valid_axes {g : Geometry} (h : g.valid = true) : 1 ≤ g.spacing ∧ 2 ≤ g.columns ∧ 2 ≤ g.rows := by
  simp only [Geometry.valid, Bool.and_eq_true, decide_eq_true_eq] at h
  omega

theorem Geometry.cell_bounds {g : Geometry} {cx cy : Nat} {c : GridCell} (hg : g.valid = true) (hc : g.cell cx cy = some c) :
    c.i + 1 < g.columns ∧ c.j + 1 < g.rows ∧ c.fx ≤ 256 ∧ c.fy ≤ 256 := by
  obtain ⟨hspacing, hcolumns, hrows⟩ := Geometry.valid_axes hg
  obtain ⟨⟨-, hx, -, hy⟩, hcell⟩ := Option.ite_none_right_eq_some.1 hc
  obtain rfl := Option.some.inj hcell
  obtain ⟨hi, hfx⟩ := axisCell_bounds hspacing hcolumns hx
  obtain ⟨hj, hfy⟩ := axisCell_bounds hspacing hrows hy
  exact ⟨hi, hj, hfx, hfy⟩

/-! ### The height and the shade index (R98, R99) -/

theorem Bank.height_within {b : Bank} {g : Geometry} {pos : Position} {c : GridCell} {lo hi : Int}
    (hfx : c.fx ≤ 256) (hfy : c.fy ≤ 256)
    (corners : ∀ i j, (i = c.i ∨ i = c.i + 1) → (j = c.j ∨ j = c.j + 1) →
      lo ≤ b.nodeNow g pos i j 0 ∧ b.nodeNow g pos i j 0 ≤ hi) :
    lo ≤ b.height g pos c ∧ b.height g pos c ≤ hi :=
  have top := blend_within hfx (corners _ _ (.inl rfl) (.inl rfl)) (corners _ _ (.inr rfl) (.inl rfl))
  have bottom := blend_within hfx (corners _ _ (.inl rfl) (.inr rfl)) (corners _ _ (.inr rfl) (.inr rfl))
  blend_within hfy top bottom

theorem shadeIndex_bounds (h base : Int) (step : Nat) {first : Nat} (hfirst : first ≤ 31) :
    first ≤ shadeIndex h base step first ∧ shadeIndex h base step first ≤ min (first + 15) 31 := by
  have band := clampInt_bounds ((h - base) / (step : Int)) (lo := 0) (hi := 15) (by decide)
  unfold shadeIndex
  omega

/-- Settles O40, from the cell's bounds, the blend's and the band's. -/
theorem shadingStaysInRange : Obligations.ShadingStaysInRange := by
  refine ⟨fun b g pos cx cy c lo hi hg hc corners => ?_, fun h base step first _ => shadeIndex_bounds h base step⟩
  obtain ⟨hcolumn, hrow, hfx, hfy⟩ := Geometry.cell_bounds hg hc
  exact ⟨hcolumn, hrow, hfx, hfy, Bank.height_within hfx hfy corners⟩

end Sys2Proof.Machine
end

section
/-! The roles of the frame buffers through every step (O48). -/

namespace Sys2Proof.Machine

/-! ### The legality of the roles, buffer by buffer (R109, R111) -/

section Roles

variable {r q : Render}

/-- The buffer that the job in flight names. -/
def Render.target (r : Render) : Option BufferId := r.job.map (·.buffer)

/-- At most one buffer has the role. -/
def Render.Unique (r : Render) (role : BufferRole) : Prop :=
  ∀ w x, (r.buffer w).role = role → (r.buffer x).role = role → w = x

theorem Render.rendering_iff (w : BufferId) : r.rendering w = true ↔ r.target = some w := by
  unfold Render.rendering Render.target
  cases r.job <;> simp

theorem Render.unique_iff (role : BufferRole) : r.Unique role ↔ ¬(r.bufferA.role = role ∧ r.bufferB.role = role) := by
  constructor
  · rintro h ⟨ha, hb⟩
    exact nomatch h .a .b ha hb
  · intro h w x hw hx
    cases w with
    | a =>
      cases x with
      | a => rfl
      | b => exact absurd ⟨hw, hx⟩ h
    | b =>
      cases x with
      | a => exact absurd ⟨hx, hw⟩ h
      | b => rfl

theorem Render.forall_buffer {P : BufferId → Prop} : (∀ w, P w) ↔ P .a ∧ P .b :=
  ⟨fun h => ⟨h .a, h .b⟩, fun h w => by cases w; exacts [h.1, h.2]⟩

theorem Render.hasReady_eq_false_iff : r.hasReady = false ↔ ∀ w, (r.buffer w).role ≠ .ready := by
  rw [← Bool.not_eq_true, Render.hasReady_iff, not_exists]

/-- The legality of the roles depends on the two roles and on the buffer that the job names. -/
theorem Render.legal_iff : r.legal ↔ r.Unique .front ∧ r.Unique .ready ∧
    (∀ w, (r.buffer w).role = .rendering ↔ r.target = some w) ∧
    (r.target ≠ none → ∀ w, (r.buffer w).role ≠ .ready) := by
  have htarget : r.target ≠ none ↔ r.job.isSome = true := by
    rw [Render.target, Ne, Option.map_eq_none_iff, Option.isSome_iff_ne_none]
  rw [Render.unique_iff, Render.unique_iff, Render.forall_buffer, htarget, ← Render.hasReady_eq_false_iff,
    ← Render.rendering_iff, ← Render.rendering_iff, and_assoc]
  rfl

/-- Both buffers have the same role, and the job in flight names the same buffer. -/
def Render.SameRoles (r q : Render) : Prop := (∀ w, (q.buffer w).role = (r.buffer w).role) ∧ q.target = r.target

theorem Render.SameRoles.refl (r : Render) : r.SameRoles r := ⟨fun _ => rfl, rfl⟩

theorem Render.SameRoles.trans {p : Render} (h : r.SameRoles q) (g : q.SameRoles p) : r.SameRoles p :=
  ⟨fun w => (g.1 w).trans (h.1 w), g.2.trans h.2⟩

theorem Render.SameRoles.legal (h : r.SameRoles q) (hl : r.legal) : q.legal := by
  obtain ⟨hroles, htarget⟩ := h
  rw [Render.legal_iff] at hl ⊢
  simpa only [Render.Unique, hroles, htarget] using hl

end Roles

/-! ### Drawing keeps the roles (R126) -/

section Drawing

variable {s : State} {j : Job}

theorem Render.buffer_congr {r q : Render} (ha : q.bufferA = r.bufferA) (hb : q.bufferB = r.bufferB) (w : BufferId) :
    q.buffer w = r.buffer w := by
  cases w with
  | a => exact ha
  | b => exact hb

/-- An item changes the pixels of the job's buffer (R115). -/
theorem settle_buffer_same (s : State) (j : Job) (it : DrawItem) (ans : Answer) :
    (s.settle j it ans).render.buffer j.buffer = { s.render.buffer j.buffer with
      pixels := j.drawInto s.store ans it (s.render.buffer j.buffer).pixels } :=
  (Render.buffer_congr rfl rfl _).trans (Render.setBuffer_same s.render _ _)

theorem settle_buffer_other (s : State) (j : Job) (it : DrawItem) (ans : Answer) {w : BufferId} (h : w ≠ j.buffer) :
    (s.settle j it ans).render.buffer w = s.render.buffer w :=
  (Render.buffer_congr rfl rfl _).trans (Render.setBuffer_other s.render h _)

theorem settle_job (s : State) (j : Job) (it : DrawItem) (ans : Answer) :
    (s.settle j it ans).render.job = some { j with drawn := j.drawn + 1, fetching := none } := rfl

theorem settle_sameRoles (hj : s.render.job = some j) (it : DrawItem) (ans : Answer) :
    s.render.SameRoles (s.settle j it ans).render := by
  refine ⟨fun w => ?_, ?_⟩
  · by_cases h : w = j.buffer
    · rw [h, settle_buffer_same]
    · rw [settle_buffer_other _ _ _ _ h]
  · rw [Render.target, Render.target, settle_job, hj]
    rfl

theorem awaitFetch_sameRoles (hj : s.render.job = some j) (tile : Nat) :
    s.render.SameRoles (s.awaitFetch j tile).render := by
  refine ⟨fun w => congrArg FrameBuffer.role (Render.buffer_congr rfl rfl w), ?_⟩
  rw [Render.target, Render.target, hj]
  rfl

theorem drawItem_sameRoles (hj : s.render.job = some j) (it : DrawItem) : s.render.SameRoles (s.drawItem j it).render := by
  obtain ⟨u, hu, hcases⟩ := drawItem_cases s j it
  have hrender : u.render = s.render := hu.render_eq (by simp)
  rw [← hrender] at hj ⊢
  obtain ⟨ans, he⟩ | ⟨r, -, he⟩ := hcases
  · exact he ▸ settle_sameRoles hj it ans
  · exact he ▸ awaitFetch_sameRoles hj r.tile

theorem drawItems_sameRoles (s : State) (items : List DrawItem) : s.render.SameRoles (s.drawItems items).render :=
  drawItems_induction (P := fun t => s.render.SameRoles t.render)
    (fun _ _ it h hj _ => h.trans (drawItem_sameRoles hj it)) s items (Render.SameRoles.refl _)

theorem afterFetch_sameRoles (s : State) : s.render.SameRoles s.afterFetch.render := by
  unfold State.afterFetch
  split
  · exact drawItems_sameRoles s _
  · exact Render.SameRoles.refl _

end Drawing

/-! ### A job's end, the swap and a job's start keep the roles legal (R110, R111, R128, R129) -/

section Changes

variable {r q : Render}

/-- The end of a job leaves its buffer READY or FREE, and the other as it was (R128, R129). -/
theorem Render.legal_ended {w : BufferId} {v : FrameBuffer} (hl : r.legal) (ht : r.target = some w)
    (ha : q.bufferA = (r.setBuffer w v).bufferA) (hb : q.bufferB = (r.setBuffer w v).bufferB) (hj : q.job = none)
    (hv : v.role = .ready ∨ v.role = .free) : q.legal := by
  obtain ⟨hfronts, -, hrendering, hready⟩ := Render.legal_iff.1 hl
  have hq : q.target = none := by rw [Render.target, hj, Option.map_none]
  have hw : q.buffer w = v := (Render.buffer_congr ha hb w).trans (Render.setBuffer_same r w v)
  have hother {x : BufferId} (hx : x ≠ w) : q.buffer x = r.buffer x :=
    (Render.buffer_congr ha hb x).trans (Render.setBuffer_other r hx v)
  have kept {x : BufferId} {role : BufferRole} (hr : role ≠ .ready) (hf : role ≠ .free) (hx : (q.buffer x).role = role) :
      x ≠ w ∧ (r.buffer x).role = role := by
    by_cases h : x = w
    · rw [h, hw] at hx
      exact (hv.elim (hr <| hx.symm.trans ·) (hf <| hx.symm.trans ·)).elim
    · exact ⟨h, hother h ▸ hx⟩
  have ready_eq {x : BufferId} (hx : (q.buffer x).role = .ready) : x = w := by
    by_contra h
    exact hready (by simp [ht]) x (hother h ▸ hx)
  refine Render.legal_iff.2 ⟨fun x y hx hy => ?_, fun x y hx hy => (ready_eq hx).trans (ready_eq hy).symm, fun x => ?_,
    fun h => absurd hq h⟩
  · exact hfronts x y (kept (by decide) (by decide) hx).2 (kept (by decide) (by decide) hy).2
  · refine ⟨fun hx => ?_, fun h => nomatch hq.symm.trans h⟩
    obtain ⟨hne, hold⟩ := kept (by decide) (by decide) hx
    exact absurd (Option.some.inj (((hrendering x).1 hold).symm.trans ht)) hne

theorem BufferRole.swapped_eq_front {role : BufferRole} : role.swapped = .front ↔ role = .ready := by
  cases role <;> decide

theorem BufferRole.swapped_eq_rendering {role : BufferRole} : role.swapped = .rendering ↔ role = .rendering := by
  cases role <;> decide

theorem BufferRole.swapped_ne_ready (role : BufferRole) : role.swapped ≠ .ready := by
  cases role <;> decide

/-- After the swap of a frame start no buffer waits READY (R110). -/
theorem Render.swap_not_ready (w : BufferId) : (r.swap.buffer w).role ≠ .ready := by
  cases hr : r.hasReady with
  | false =>
    rw [Render.swap_noReady hr]
    exact Render.hasReady_eq_false_iff.1 hr w
  | true =>
    rw [Render.swap_ready hr]
    exact BufferRole.swapped_ne_ready _

theorem Render.swap_target : r.swap.target = r.target := by rw [Render.target, Render.swap_job, Render.target]

theorem Render.legal_swap (hl : r.legal) : r.swap.legal := by
  cases hr : r.hasReady with
  | false =>
    rw [Render.swap_noReady hr]
    exact hl
  | true =>
    obtain ⟨-, hreadies, hrendering, -⟩ := Render.legal_iff.1 hl
    refine Render.legal_iff.2 ⟨fun w x hw hx => ?_, fun w x hw _ => absurd hw (Render.swap_not_ready w), fun w => ?_,
      fun _ => Render.swap_not_ready⟩
    · rw [Render.swap_ready hr, BufferRole.swapped_eq_front] at hw hx
      exact hreadies w x hw hx
    · rw [Render.swap_ready hr, BufferRole.swapped_eq_rendering, Render.swap_target]
      exact hrendering w

/-- A job starts into a FREE buffer while no buffer waits READY (R111). -/
theorem Render.legal_start {which : BufferId} {j : Job} (hl : r.legal) (hj : r.job = none)
    (hready : ∀ w, (r.buffer w).role ≠ .ready) (hfree : (r.buffer which).role = .free) (hb : j.buffer = which) :
    (r.start which j).legal := by
  obtain ⟨hfronts, -, -, -⟩ := Render.legal_iff.1 hl
  have htarget : (r.start which j).target = some which := congrArg some hb
  have not_ready (w : BufferId) : ((r.start which j).buffer w).role ≠ .ready := by
    by_cases h : w = which
    · subst h
      rw [Render.start_same]
      exact fun h => nomatch h
    · rw [Render.start_other j h]
      exact hready w
  refine Render.legal_iff.2 ⟨fun w x hw hx => ?_, fun w x hw _ => absurd hw (not_ready w), fun w => ?_, fun _ => not_ready⟩
  · exact hfronts w x ((Render.start_role_front j hfree w).1 hw) ((Render.start_role_front j hfree x).1 hx)
  · rw [htarget]
    by_cases h : w = which
    · subst h
      rw [Render.start_same]
      exact iff_of_true rfl rfl
    · rw [Render.start_other j h]
      exact iff_of_false (Render.not_rendering hl hj w) fun e => h (Option.some.inj e).symm

end Changes

/-! ### Operations that keep the roles as they are -/

section Same

variable (s : State)

/-- A change of the controller outside the buffers and the job keeps the roles. -/
theorem Render.SameRoles.of_fields {r q : Render} (ha : q.bufferA = r.bufferA) (hb : q.bufferB = r.bufferB)
    (hj : q.job = r.job) : r.SameRoles q :=
  ⟨fun w => congrArg FrameBuffer.role (Render.buffer_congr ha hb w), by rw [Render.target, hj, Render.target]⟩

theorem applyDeferred_sameRoles : s.render.SameRoles s.applyDeferred.render := by
  rw [applyDeferred_render]
  exact Render.SameRoles.of_fields rfl rfl rfl

theorem deferWrite_sameRoles (w : DeferredWrite) : s.render.SameRoles (s.deferWrite w).render := by
  have hqueued (d : List DeferredWrite) : s.render.SameRoles (s.setRender { s.render with deferred := d }).render :=
    Render.SameRoles.of_fields rfl rfl rfl
  unfold State.deferWrite
  dsimp only
  split
  · exact (hqueued _).trans (applyDeferred_sameRoles _)
  · exact hqueued _

/-- A page whose content goes takes tags away, and its job goes on (R41, R43). -/
theorem Render.contentGone_sameRoles (r : Render) (p : Fin 16) : r.SameRoles (r.contentGone p) := by
  have untag_role (b : FrameBuffer) : (b.untag p).role = b.role := by
    unfold FrameBuffer.untag
    split <;> rfl
  have told_buffer (j : Job) : (if j.page = p then { j with contentStands := false } else j).buffer = j.buffer := by
    split <;> rfl
  refine ⟨fun w => ?_, ?_⟩
  · cases w with
    | a => exact untag_role _
    | b => exact untag_role _
  · rw [Render.target, Render.contentGone, Option.map_map]
    exact congrArg (Option.map · r.job) (funext told_buffer)

theorem loadPage_sameRoles (p : Fin 16) : s.render.SameRoles (s.loadPage p).render := by
  rw [State.loadPage, (frame_dropKey _).render_eq (by simp)]
  exact Render.SameRoles.of_fields rfl rfl rfl

theorem unloadPage_sameRoles : s.render.SameRoles s.unloadPage.render := by
  rw [State.unloadPage, (frame_dropKey _).render_eq (by simp)]
  exact Render.SameRoles.of_fields rfl rfl rfl

/-- An answer keeps the roles as they are. -/
theorem Render.SameRoles.answered {r : Render} {t : State} (h : r.SameRoles t.render) (l : Link) (st : Status)
    (result : List Byte) : r.SameRoles (t.finish l st result).render := by
  rw [State.finish_render]
  exact h

theorem answer_sameRoles (l : Link) (st : Status) (result : List Byte) :
    s.render.SameRoles (s.finish l st result).render := (Render.SameRoles.refl _).answered l st result

end Same

/-! ### The ends of a job and the frame start keep the roles legal -/

section Legal

variable {s : State} {j : Job}

/-- The roles are legal (R109, R111). -/
abbrev State.rolesLegal (s : State) : Prop := s.render.legal

theorem State.rolesLegal_congr {t : State} (h : t.render = s.render) (hl : s.rolesLegal) : t.rolesLegal := by
  rw [State.rolesLegal, h]
  exact hl

theorem reads_rolesLegal : Reads [.render] State.rolesLegal := fun s t h hl =>
  State.rolesLegal_congr (show t.render = s.render from h .render (by simp)) hl

theorem Render.target_of_job {r : Render} (hj : r.job = some j) : r.target = some j.buffer := by
  rw [Render.target, hj, Option.map_some]

theorem completeJob_rolesLegal (hl : s.rolesLegal) (hj : s.render.job = some j) :
    (s.completeJob j).rolesLegal := by
  rw [State.rolesLegal, completeJob_render]
  exact Render.legal_ended hl (Render.target_of_job hj) rfl rfl rfl (Or.inl rfl)

theorem discardJob_rolesLegal (tile : Nat) (hl : s.rolesLegal) (hj : s.render.job = some j) :
    (s.discardJob j tile).rolesLegal := by
  rw [State.rolesLegal, discardJob_render]
  exact Render.legal_ended hl (Render.target_of_job hj) rfl rfl rfl (Or.inr rfl)

theorem jobDone_job (h : s.jobDone = some j) : s.render.job = some j := by
  unfold State.jobDone at h
  split at h
  · exact nomatch h
  · rename_i i hi
    obtain ⟨-, hij⟩ := Option.ite_none_right_eq_some.1 h
    exact hi.trans hij

theorem waitingFetch_job {it : DrawItem} {r : TileRequest} (h : s.waitingFetch = some (j, it, r)) :
    s.render.job = some j := by
  unfold State.waitingFetch at h
  split at h
  · exact nomatch h
  · rename_i i hi
    split at h
    · split at h
      · exact nomatch h
      · cases h
        exact hi
    · exact nomatch h

theorem runJob_rolesLegal (hl : s.rolesLegal) : s.runJob.rolesLegal := (drawItems_sameRoles s _).legal hl

/-- The frame start swaps the buffers, and starts a job into the FREE one where none is in flight and a page is LOADED (R110, R111). -/
theorem enterFrame_framed_rolesLegal (hl : s.rolesLegal) : s.enterFrame.framed.rolesLegal := by
  by_cases hstands : s.render.job ≠ none ∨ s.pages.loadedRecord = none
  · obtain ⟨hjob, hbuffers⟩ := enterFrame_framed_stands hstands
    exact Render.SameRoles.legal ⟨fun w => congrArg FrameBuffer.role (hbuffers w),
      by rw [Render.target, hjob, Render.swap_target, Render.target]⟩ (Render.legal_swap hl)
  · obtain ⟨hjob, hrecord⟩ := not_or.1 hstands
    have hj : s.render.job = none := not_not.1 hjob
    obtain ⟨p, rec, hp, hrec⟩ := loadedRecord_isSome (Option.isSome_iff_ne_none.2 hrecord)
    obtain ⟨which, hfree⟩ := Render.swap_freeBuffer hl hj
    rw [State.rolesLegal, enterFrame_framed_starts hj hp hrec hfree]
    refine Render.legal_start ?_ ((dueRender_job s).trans hj) (fun w => ?_) ?_ rfl
    · rw [dueRender_render]
      exact (Render.SameRoles.of_fields rfl rfl rfl).legal (Render.legal_swap hl)
    · rw [dueRender_buffer]
      exact Render.swap_not_ready w
    · rw [dueRender_buffer]
      exact Render.freeBuffer_free hfree

end Legal

/-! ### Every command keeps the roles legal -/

section Owners

variable (s : State) (p : Packet)

theorem ownListWrite_sameRoles : s.render.SameRoles (ownListWrite p s).render := by
  unfold ownListWrite
  dsimp only
  split
  · split
    · exact answer_sameRoles _ _ _ _
    · exact deferWrite_sameRoles _ _
  · exact answer_sameRoles _ _ _ _

theorem ownSymbolWrite_sameRoles : s.render.SameRoles (ownSymbolWrite p s).render := by
  unfold ownSymbolWrite
  split
  · exact answer_sameRoles _ _ _ _
  · exact deferWrite_sameRoles _ _

theorem ownPageDefine_sameRoles : s.render.SameRoles (ownPageDefine p s).render := by
  unfold ownPageDefine
  dsimp only
  split
  · exact answer_sameRoles _ _ _ _
  · split
    · exact answer_sameRoles _ _ _ _
    · split
      · exact (s.render.contentGone_sameRoles _).answered _ _ _
      · exact answer_sameRoles _ _ _ _

theorem ownPageDelete_sameRoles : s.render.SameRoles (ownPageDelete p s).render := by
  unfold ownPageDelete
  dsimp only
  split
  · exact answer_sameRoles _ _ _ _
  · split
    · exact answer_sameRoles _ _ _ _
    · exact (s.render.contentGone_sameRoles _).answered _ _ _

theorem ownLoad_sameRoles : s.render.SameRoles (ownLoad p s).render := by
  unfold ownLoad
  dsimp only
  split_ifs
  · exact answer_sameRoles _ _ _ _
  · exact answer_sameRoles _ _ _ _
  · exact answer_sameRoles _ _ _ _
  · exact (loadPage_sameRoles s (pageOf p)).answered _ _ _

theorem ownUnload_sameRoles : s.render.SameRoles (ownUnload p s).render := by
  unfold ownUnload
  split_ifs
  · exact answer_sameRoles _ _ _ _
  · exact answer_sameRoles _ _ _ _
  · exact (unloadPage_sameRoles s).answered _ _ _

end Owners

/-- A command that keeps the roles as they are. -/
theorem keepsRolesLegal_same {c : Instr} (h : ∀ s, ∃ t, exec c s = .next t ∧ s.render.SameRoles t.render) :
    Keeps State.rolesLegal c := fun s hl => by
  obtain ⟨t, ht, hsame⟩ := h s
  exact ⟨t, ht, hsame.legal hl⟩

theorem keepsRolesLegal_frameStart (order : List FramePart) : Keeps State.rolesLegal (.frameStart order) := fun s hl => by
  obtain ⟨t, ht, hf⟩ := frameStart_next order s
  exact ⟨t, ht, State.rolesLegal_congr (hf.render_eq (by simp)) (enterFrame_framed_rolesLegal hl)⟩

theorem keepsRolesLegal_jobComplete : Keeps State.rolesLegal .jobComplete := fun s hl => by
  refine ⟨_, rfl, ?_⟩
  dsimp only
  split
  · rename_i j hj
    exact completeJob_rolesLegal (runJob_rolesLegal hl) (jobDone_job hj)
  · exact hl

theorem keepsRolesLegal_tileFetchComplete (noise : List Byte) : Keeps State.rolesLegal (.tileFetchComplete noise) :=
  fun s hl => by
    refine ⟨_, rfl, ?_⟩
    dsimp only
    split
    · rename_i j it r hw _
      have hfetched (v : Chart) : ((s.runJob.endFetch r noise).1.setChart v).render = s.runJob.render :=
        (frame_endFetch _ r noise).render_eq (by simp)
      have hj (v : Chart) : ((s.runJob.endFetch r noise).1.setChart v).render.job = some j := by
        rw [hfetched, waitingFetch_job hw]
      have hlegal (v : Chart) : ((s.runJob.endFetch r noise).1.setChart v).rolesLegal :=
        State.rolesLegal_congr (hfetched v) (runJob_rolesLegal hl)
      split
      · exact (afterFetch_sameRoles _).legal ((settle_sameRoles (hj _) it _).legal (hlegal _))
      · exact (afterFetch_sameRoles _).legal (discardJob_rolesLegal _ (hlegal _) (hj _))
    · exact hl

theorem keepsRolesLegal_cacheHitParityError (tile : Fin 256) : Keeps State.rolesLegal (.cacheHitParityError tile) := by
  refine keepsRolesLegal_same fun s => ⟨_, rfl, ?_⟩
  dsimp only
  split
  · split
    · exact drawItems_sameRoles _ _
    · exact Render.SameRoles.refl _
  · exact Render.SameRoles.refl _

theorem keepsRolesLegal_deferredWriteApply : Keeps State.rolesLegal .deferredWriteApply := by
  refine keepsRolesLegal_same fun s => ⟨_, rfl, ?_⟩
  split
  · exact applyDeferred_sameRoles s
  · exact Render.SameRoles.refl _

theorem keepsRolesLegal_powerOnReset (high : Bool) : Keeps State.rolesLegal (.powerOnReset high) := fun _ _ =>
  ⟨_, rfl, Render.SameRoles.legal ⟨fun w => by cases w <;> rfl, rfl⟩ Render.reset_legal⟩

/-- A packet command whose owner keeps the roles as they are. -/
theorem keepsRolesLegal_packet {c : Instr} {k : Kind} {p : Packet} {own : Packet → State → State}
    (hc : ∀ s, exec c s = .next (serve k p own s)) (h : ∀ s : State, s.render.SameRoles (own p s).render) :
    Keeps State.rolesLegal c :=
  keeps_packet reads_rolesLegal (by simp [packetBlocks]) hc fun s hl => (h s).legal hl

theorem keepsRolesLegal (c : Instr) : Keeps State.rolesLegal c := by
  cases c with
  | powerOnReset high => exact keepsRolesLegal_powerOnReset high
  | frameStart order => exact keepsRolesLegal_frameStart order
  | tileFetchComplete noise => exact keepsRolesLegal_tileFetchComplete noise
  | jobComplete => exact keepsRolesLegal_jobComplete
  | cacheHitParityError tile => exact keepsRolesLegal_cacheHitParityError tile
  | deferredWriteApply => exact keepsRolesLegal_deferredWriteApply
  | listWrite p => exact keepsRolesLegal_packet (fun _ => rfl) (ownListWrite_sameRoles · p)
  | symbolWrite p => exact keepsRolesLegal_packet (fun _ => rfl) (ownSymbolWrite_sameRoles · p)
  | pageDefine p => exact keepsRolesLegal_packet (fun _ => rfl) (ownPageDefine_sameRoles · p)
  | pageDelete p => exact keepsRolesLegal_packet (fun _ => rfl) (ownPageDelete_sameRoles · p)
  | load p => exact keepsRolesLegal_packet (fun _ => rfl) (ownLoad_sameRoles · p)
  | unload p => exact keepsRolesLegal_packet (fun _ => rfl) (ownUnload_sameRoles · p)
  | _ => exact keeps_untouched reads_rolesLegal (by simp [touched, packetBlocks])

/-! ### Every step keeps the roles legal -/

/-- With an empty queue a step moves the clock and draws (log 1, log 9). -/
theorem tick_rolesLegal {s : State} (hl : s.rolesLegal) : s.tick.rolesLegal := by
  have hdrawn : s.drawOne.rolesLegal := (drawItems_sameRoles s _).legal hl
  unfold State.tick State.passPeriod
  split
  · exact reads_rolesLegal.framed (frame_advanceTo _ _) (by simp) hdrawn
  · exact hdrawn

/-- A property that every command and the tick keep, and that the queue does not bear on, is kept by every step (log 1). -/
theorem step_keeps_of_tick {rs : List Block} {P : State → Prop} (hP : Reads rs P) (hq : Block.queue ∉ rs)
    (htick : ∀ s, P s → P s.tick) (hc : ∀ c, Keeps P c) {s t : State} (h : P s) (hstep : step s = .next t) : P t := by
  cases hpending : s.pending with
  | nil =>
    simp only [step, hpending, Host.Outcome.next.injEq] at hstep
    exact hstep ▸ htick s h
  | cons c rest =>
    simp only [step, hpending] at hstep
    have hrest : P (s.withPending rest) :=
      hP.framed (frame_withPending s rest) (fun b hb he => hq (List.mem_singleton.1 he ▸ hb)) h
    obtain ⟨u, hu, hkept⟩ := hc c (s.withPending rest) hrest
    obtain rfl : u = t := by simpa only [hu, Host.Outcome.next.injEq] using hstep
    exact hkept

/-- Settles O48: every command keeps the roles legal, and so does the drawing of a step on an empty queue. -/
theorem bufferRolesKept : Obligations.BufferRolesKept := fun _ _ hl hstep =>
  step_keeps_of_tick (P := State.rolesLegal) reads_rolesLegal (by simp) (fun _ => tick_rolesLegal) keepsRolesLegal hl hstep

end Sys2Proof.Machine
end

section
/-! The background and the clipping of every other item to the screen window (O41). -/

namespace Sys2Proof.Machine

/-- A memory that lists one value alone reads as it at the addresses that it lists. -/
theorem Mem.read_of_forall_eq {α : Type} {d v : α} {m : Mem α} (h : ∀ c ∈ m, c.2 = v) (a : Nat) :
    Mem.read d m a = if ∃ c ∈ m, c.1 = a then v else d := by
  induction m with
  | nil => simp [Mem.read]
  | cons c rest ih =>
    obtain ⟨b, x⟩ := c
    obtain rfl : x = v := h (b, x) List.mem_cons_self
    have hrest := ih fun c hc => h c (List.mem_cons_of_mem _ hc)
    by_cases hab : a = b
    · simp [Mem.read, hab]
    · simp only [Mem.read, if_neg hab, hrest, List.exists_mem_cons_iff, Ne.symm hab, false_or]

section Window

variable {v : Viewport}

/-- The screen window of an accepted viewport lies in the active raster (R34). -/
theorem Viewport.accepted_screen (h : v.accepted = true) : v.sx0 + v.sw ≤ 1920 ∧ v.sy0 + v.sh ≤ 1080 := by
  simp only [Viewport.accepted, Viewport.inPlane, Bool.and_eq_true, decide_eq_true_eq] at h
  omega

/-- What is clipped to the screen window lies at addresses of the window's own pixels (R117). -/
theorem Viewport.clip_address_ne (h : v.accepted = true) {x y : Nat} (hx : x < 1920) (hout : v.inWindow x y = false)
    (ps : List Paint) : ∀ c ∈ v.clip ps, c.1 ≠ y * 1920 + x := by
  obtain ⟨hscreen, -⟩ := Viewport.accepted_screen h
  rintro c hc haddress
  obtain ⟨⟨⟨px, py⟩, index⟩, -, hp⟩ := List.mem_filterMap.1 hc
  obtain ⟨hin, hcell⟩ := Option.ite_none_right_eq_some.1 hp
  obtain rfl := Option.some.inj hcell
  obtain ⟨hx0, hx1, hy0, hy1⟩ := Viewport.inWindow_iff.1 hin
  dsimp only at hx0 hx1 hy0 hy1 haddress
  have hsame : px = x ∧ py = y := by omega
  obtain ⟨rfl, rfl⟩ := hsame
  exact Bool.false_ne_true (hout.symm.trans hin)

end Window

section Background

variable {r : PageRecord}

theorem PageRecord.mem_background (h : r.view.accepted = true) (hs : r.sea ≠ pixelDefault) {c : Nat × Nat} :
    c ∈ r.background ↔ ∃ row < r.view.sh, ∃ col < r.view.sw,
      ((r.view.sy0 + row) * 1920 + (r.view.sx0 + col), r.sea) = c := by
  obtain ⟨hx, hy⟩ := Viewport.accepted_screen h
  have hrows : min r.view.sh (1080 - r.view.sy0) = r.view.sh := by omega
  have hcolumns : min r.view.sw (1920 - r.view.sx0) = r.view.sw := by omega
  simp only [PageRecord.background, if_neg hs, hrows, hcolumns, List.mem_flatMap, List.mem_map, List.mem_range]

/-- The background lists exactly the pixels of the screen window (R115). -/
theorem PageRecord.background_address_iff (h : r.view.accepted = true) (hs : r.sea ≠ pixelDefault) {x y : Nat}
    (hx : x < 1920) : (∃ c ∈ r.background, c.1 = y * 1920 + x) ↔ r.view.inWindow (x : Int) (y : Int) = true := by
  obtain ⟨hscreen, -⟩ := Viewport.accepted_screen h
  rw [Viewport.inWindow_iff]
  constructor
  · rintro ⟨c, hc, haddress⟩
    obtain ⟨row, hrow, col, hcol, rfl⟩ := (PageRecord.mem_background h hs).1 hc
    dsimp only at haddress
    omega
  · rintro ⟨hx0, hx1, hy0, hy1⟩
    refine ⟨_, (PageRecord.mem_background h hs).2 ⟨y - r.view.sy0, by omega, x - r.view.sx0, by omega, rfl⟩, ?_⟩
    dsimp only
    omega

theorem PageRecord.read_background (h : r.view.accepted = true) {x y : Nat} (hx : x < 1920) :
    Mem.read pixelDefault r.background (y * 1920 + x) =
      if r.view.inWindow (x : Int) (y : Int) = true then r.sea else pixelDefault := by
  by_cases hs : r.sea = pixelDefault
  · rw [PageRecord.background, if_pos hs, hs, ite_self]
    rfl
  · have hvalue : ∀ c ∈ r.background, c.2 = r.sea := fun c hc => by
      obtain ⟨row, -, col, -, rfl⟩ := (PageRecord.mem_background h hs).1 hc
      rfl
    rw [Mem.read_of_forall_eq hvalue]
    simp only [PageRecord.background_address_iff h hs hx]

end Background

/-- Every item but the background writes what it paints, clipped to the screen window (R117). -/
theorem drawInto_painted (j : Job) (store : FieldStore) (ans : Answer) {it : DrawItem} (h : it ≠ .background) (px : Mem Nat) :
    j.drawInto store ans it px = Mem.writeAll pixelDefault px (j.record.view.clip (j.paint store ans it)) := by
  cases it with
  | background => exact absurd rfl h
  | _ => rfl

/-- Settles O41: the pixels that the background lists, and the addresses that the clipping leaves to every other item. -/
theorem drawingStaysInTheWindow : Obligations.DrawingStaysInTheWindow := by
  refine ⟨fun r x y hview hx _ => PageRecord.read_background hview hx,
    fun j store ans it px x y hview hwf hit hx _ hout => ?_⟩
  rw [drawInto_painted j store ans hit]
  exact Mem.read_writeAll_other hwf _ (Viewport.clip_address_ne hview hx hout _)

end Sys2Proof.Machine
end

section
/-! CACHE RESTORE and the work that a job's end leaves to be done (O43, O47). -/

namespace Sys2Proof.Machine

/-! ### CACHE RESTORE carried out (R155) -/

section Restore

variable (s : State) (l : Link)

theorem Chart.flush_cache (c : Chart) (i : Fin 64) : c.flush.cache[i] = none := Vector.getElem_replicate i.isLt

theorem restoreCache_chart : (s.restoreCache l).chart = { s.chart.flush with working := none } := by
  simp [State.restoreCache]

theorem restoreCache_fault : (s.restoreCache l).fault = { s.fault with mode := .normal } := by
  simp [State.restoreCache]

theorem restoreCache_port : (s.restoreCache l).port l = Port.finish .ok [s.fault.mode.code, 0] (s.port l) := by
  simp [State.restoreCache, CacheMode.code]

variable {s l}

theorem applyRestore_waiting (h : (s.port l).holds .cacheRestore = true) : s.applyRestore l = s.restoreCache l := if_pos h

end Restore

/-- Settles O47: CACHE RESTORE at once, waiting in its slot, and carried out by its row. -/
theorem cacheRestoreFlushes : Obligations.CacheRestoreFlushes := by
  have run {p : Packet} {s : State} (ht : takes .cacheRestore p s = true) :
      exec (.cacheRestore p) s = .next (ownCacheRestore p (s.taken .cacheRestore p)) := exec_of_takes rfl ht
  refine ⟨fun p s ht hj => ?atOnce, fun p s ht hj => ?waits, fun l s hj hw => ?applied⟩
  case atOnce =>
    have hown : ownCacheRestore p (s.taken .cacheRestore p) = (s.taken .cacheRestore p).restoreCache p.link :=
      if_pos (by rw [State.taken_render, hj]; rfl)
    refine ⟨_, (run ht).trans (congrArg _ hown), ?_⟩
    rw [restoreCache_chart, restoreCache_fault, restoreCache_port, State.taken_chart, State.taken_fault]
    exact ⟨s.chart.flush_cache, rfl, rfl, rfl, rfl, rfl, rfl, rfl⟩
  case waits =>
    have hown : ownCacheRestore p (s.taken .cacheRestore p) = s.taken .cacheRestore p :=
      if_neg (by rw [State.taken_render, Option.isNone_iff_eq_none]; exact hj)
    rw [run ht, hown]
  case applied =>
    have hexec : exec (.cacheRestoreApply l) s = .next (s.applyRestore l) :=
      congrArg Host.Outcome.next (if_pos (by rw [hj]; rfl))
    refine ⟨_, hexec.trans (congrArg _ (applyRestore_waiting hw)), ?_⟩
    rw [restoreCache_chart, restoreCache_fault, restoreCache_port]
    exact ⟨s.chart.flush_cache, rfl, rfl, rfl, rfl⟩

/-! ### A gap with work waiting for it (R130) -/

section Gap

variable {s : State} {l : Link}

theorem restoreCache_slot (s : State) (l : Link) : ((s.restoreCache l).port l).slot = none := by
  rw [restoreCache_port, Port.finish_slot]

/-- A CACHE RESTORE leaves the mode NORMAL where it is (R155). -/
theorem applyRestore_normal (l : Link) (h : s.fault.mode = .normal) : (s.applyRestore l).fault.mode = .normal := by
  unfold State.applyRestore
  split
  · rw [restoreCache_fault]
  · exact h

/-- A CACHE RESTORE leaves no working tile where there is none (R155). -/
theorem applyRestore_working (l : Link) (h : s.chart.working = none) : (s.applyRestore l).chart.working = none := by
  obtain hc | hc := applyRestore_chart s l
  · rw [hc, h]
  · rw [hc]

theorem gapWork_working (h : s.chart.working = none) : s.gapWork.chart.working = none :=
  applyRestore_working _ (applyRestore_working _ (by rw [(frame_applyDeferred s).chart_eq (by simp), h]))

/-- A CACHE RESTORE that waits for the gap is answered in it, and the mode is then NORMAL (R130, R155).
A deferred write that waits on the forecast link holds that link's only slot, so no CACHE RESTORE waits there beside it. -/
theorem gapWork_restores (hw : (s.port l).holds .cacheRestore = true) (hd : l = .forecast → s.render.deferred = []) :
    (s.gapWork.port l).slot = none ∧ s.gapWork.fault.mode = .normal := by
  unfold State.gapWork
  cases l with
  | forecast =>
    rw [applyDeferred_nil s (hd rfl), applyRestore_waiting hw, (frame_applyRestore _ .studio).port_eq _ (by simp)]
    exact ⟨restoreCache_slot s .forecast, applyRestore_normal _ (by rw [restoreCache_fault])⟩
  | studio =>
    have hstill : (s.applyDeferred.applyRestore .forecast).port .studio = s.port .studio := by
      rw [(frame_applyRestore _ .forecast).port_eq _ (by simp), (frame_applyDeferred s).port_eq _ (by simp)]
    rw [applyRestore_waiting (hstill ▸ hw)]
    exact ⟨restoreCache_slot _ .studio, by rw [restoreCache_fault]⟩

end Gap

/-! ### JOB_COMPLETE (R128) -/

section Complete

variable {s : State} {j : Job}

@[simp] theorem Port.notify_slot (n : TxPacket) (p : Port) : (Port.notify n p).slot = p.slot := by
  unfold Port.notify
  split
  · rw [Port.pump_slot]
  · rfl

theorem Port.notify_holds (k : Kind) (n : TxPacket) (p : Port) : (Port.notify n p).holds k = p.holds k := by
  rw [Port.holds, Port.notify_slot, Port.holds]

/-- The studio port once an unpoisoned completion has announced its page, where it does (R114). -/
def State.announced (s : State) (j : Job) : Port :=
  if j.announce = true ∧ s.render.newlyLoaded = some j.page then
    Port.notify ((Notice.pageReady j.page).packet s.timing.frame) s.studio
  else s.studio

theorem announced_holds (s : State) (j : Job) (k : Kind) : (s.announced j).holds k = s.studio.holds k := by
  unfold State.announced
  split
  · exact Port.notify_holds _ _ _
  · rfl

/-- A completed job's state is the one that its end leaves, with the work that waits for the gap then done (R128, R130). -/
theorem completeJob_gap (s : State) (j : Job) :
    ∃ q : State, s.completeJob j = q.gapWork ∧ q.store = s.store ∧ q.render.deferred = s.render.deferred ∧
      q.chart.working = none ∧ q.forecast = s.forecast ∧ q.studio = s.announced j := by
  unfold State.completeJob State.announced
  dsimp only
  generalize hr : s.render.setBuffer j.buffer _ = r
  have hnewly : r.newlyLoaded = s.render.newlyLoaded := by rw [← hr, Render.setBuffer_newlyLoaded]
  have hdeferred : r.deferred = s.render.deferred := by rw [← hr, Render.setBuffer_deferred]
  rw [State.setRender_render, hnewly]
  split
  · exact ⟨_, rfl, rfl, hdeferred, rfl, rfl, rfl⟩
  · exact ⟨_, rfl, rfl, hdeferred, rfl, rfl, rfl⟩

/-- JOB_COMPLETE of a job that has drawn every item is its completion (R128). -/
theorem jobComplete_done (hj : s.render.job = some j) (hf : j.fetching = none)
    (hd : (j.items s.store.lists).length ≤ j.drawn) : exec .jobComplete s = .next (s.completeJob j) := by
  have hdone : s.jobDone = some j := by
    simp only [State.jobDone, hj]
    exact if_pos ⟨by rw [hf]; rfl, hd⟩
  change execJobComplete s = _
  simp only [execJobComplete, runJob_drawn hj hd, hdone]

end Complete

/-- Settles O43: the controller that the completion leaves, and the work that waited for the gap. -/
theorem jobCompletesReady : Obligations.JobCompletesReady := by
  intro s j hj hf hd
  obtain ⟨q, hgap, hstore, hdeferred, hworking, hforecast, hstudio⟩ := completeJob_gap s j
  have hrender := completeJob_render s j
  have hgapStore : (s.completeJob j).store = q.applyDeferred.store := by rw [hgap, gapWork_store]
  have hholds (l : Link) : (q.port l).holds .cacheRestore = (s.port l).holds .cacheRestore := by
    cases l with
    | forecast => exact congrArg _ hforecast
    | studio => exact (congrArg _ hstudio).trans (announced_holds s j _)
  refine ⟨_, jobComplete_done hj hf hd, ?job, ?buffer, ?late, ?working, fun hnone => ?kept, fun w hw => ⟨?written, ?emptied⟩,
    fun l hw hnone => ?restored, ?newlyLoaded, fun hnone hrestores => ?quiet⟩
  case job => rw [hrender]
  case buffer =>
    rw [hrender]
    exact (Render.buffer_congr rfl rfl _).trans (Render.setBuffer_same s.render _ _)
  case late =>
    rw [hrender]
    exact Render.setBuffer_late _ _ _
  case working =>
    rw [hgap]
    exact gapWork_working hworking
  case kept => rw [hgapStore, applyDeferred_nil q (hdeferred.trans hnone), hstore]
  case written =>
    rw [hgapStore, applyDeferred_only (hdeferred.trans hw), State.finish_store, State.setRender_store,
      State.setStore_store, hstore]
  case emptied => rw [hrender, hw, List.tail_cons]
  case restored =>
    rw [hgap]
    exact gapWork_restores ((hholds l).trans hw) fun hl => hdeferred.trans (hnone hl)
  case newlyLoaded => rw [hrender]
  case quiet =>
    rw [hgap, gapWork_nothing ⟨hdeferred.trans hnone, fun l => (hholds l).trans (hrestores l)⟩]
    exact ⟨hstudio, hforecast⟩

end Sys2Proof.Machine
end

section
/-! Where a record is placed in the tile cache (O44). -/

namespace Sys2Proof.Machine

/-! ### Folds and searches -/

theorem le_foldl_of_le {α : Type} {f : Nat → α → Nat} (h : ∀ acc x, acc ≤ f acc x) (l : List α) (acc : Nat) :
    acc ≤ l.foldl f acc := by
  induction l generalizing acc with
  | nil => exact le_rfl
  | cons x rest ih => exact (h acc x).trans (ih _)

/-- A fold that never falls ends above what one of its steps reaches from anywhere. -/
theorem lt_foldl_of_mem {α : Type} {f : Nat → α → Nat} (h : ∀ acc x, acc ≤ f acc x) {l : List α} {x : α} {n : Nat}
    (hx : x ∈ l) (hn : ∀ acc, n < f acc x) (acc : Nat) : n < l.foldl f acc := by
  induction l generalizing acc with
  | nil => exact absurd hx List.not_mem_nil
  | cons y rest ih =>
    rcases List.mem_cons.1 hx with rfl | hx
    · exact (hn acc).trans_le (le_foldl_of_le h rest _)
    · exact ih hx _

/-- A search of a vector finds the first entry that passes the test. -/
theorem findIdx?_toList {α : Type} {n : Nat} {v : Vector α n} {test : α → Bool} {i : Fin n} (hi : test v[i] = true)
    (hk : ∀ k : Fin n, k < i → test v[k] = false) : v.toList.findIdx? test = some i.val := by
  refine List.findIdx?_eq_some_iff_getElem.2 ⟨by simp, ?_, fun k hki => ?_⟩
  · rw [Vector.getElem_toList]
    exact hi
  · rw [Vector.getElem_toList, Bool.not_eq_true]
    exact hk ⟨k, by omega⟩ hki

/-! ### The victim of a placement (R138) -/

section Cache

variable {cache : Vector (Option CacheEntry) 64}

/-- The next stamp is later than that of every valid entry (R138). -/
theorem stamp_lt_nextStamp {k : Fin 64} {x : CacheEntry} (h : cache[k] = some x) : x.stamp < nextStamp cache := by
  have hmem : some x ∈ cache.toList := Vector.mem_toList_iff.2 (Vector.mem_iff_getElem.2 ⟨k.val, k.isLt, h⟩)
  unfold nextStamp
  refine lt_foldl_of_mem (fun acc e => ?_) hmem (fun acc => ?_) 0
  · cases e with
    | none => exact le_rfl
    | some e => exact le_max_left _ _
  · exact Nat.lt_of_lt_of_le (Nat.lt_succ_self _) (le_max_right _ _)

/-- The entry that a record makes (R138). -/
def placedEntry (cache : Vector (Option CacheEntry) 64) (tile : Nat) (d : Tile) : CacheEntry :=
  ⟨tile, d, true, nextStamp cache⟩

/-- Entry `i` is the lowest-numbered invalid one (R138). -/
def FirstInvalid (cache : Vector (Option CacheEntry) 64) (i : Fin 64) : Prop :=
  cache[i] = none ∧ ∀ k : Fin 64, k < i → cache[k] ≠ none

/-- Entry `i` is valid and has the earliest stamp of all, every other being valid too (R138). -/
def LeastRecent (cache : Vector (Option CacheEntry) 64) (i : Fin 64) : Prop :=
  ∃ e, cache[i] = some e ∧ ∀ k : Fin 64, k ≠ i → ∃ x, cache[k] = some x ∧ e.stamp < x.stamp

theorem oldestIndex_eq {i : Fin 64} (h : LeastRecent cache i) : oldestIndex cache = i.val := by
  obtain ⟨e, he, hothers⟩ := h
  have hleast : ∀ o ∈ cache.toList, ∀ x, o = some x → e.stamp ≤ x.stamp := by
    rintro o ho x rfl
    obtain ⟨k, hk, hx⟩ := Vector.mem_iff_getElem.1 (Vector.mem_toList_iff.1 ho)
    by_cases hki : (⟨k, hk⟩ : Fin 64) = i
    · subst hki
      exact (Option.some.inj (he.symm.trans hx)) ▸ le_rfl
    · obtain ⟨y, hy, hlt⟩ := hothers ⟨k, hk⟩ hki
      exact (Option.some.inj (hy.symm.trans hx)) ▸ hlt.le
  have hmem : some e ∈ cache.toList := Vector.mem_toList_iff.2 (Vector.mem_iff_getElem.2 ⟨i.val, i.isLt, he⟩)
  unfold oldestIndex
  rw [findIdx?_toList (i := i) ?found ?earlier, Option.getD_some]
  case found =>
    rw [he]
    refine List.all_eq_true.2 fun o ho => ?_
    cases o with
    | none => rfl
    | some x => exact decide_eq_true (hleast _ ho x rfl)
  case earlier =>
    intro k hk
    obtain ⟨x, hx, hlt⟩ := hothers k hk.ne
    rw [hx]
    exact List.all_eq_false.2 ⟨some e, hmem, by simpa using hlt⟩

/-- A record is placed in the lowest-numbered invalid entry, else in that of the earliest stamp (R138). -/
theorem cachePlace_eq {i : Fin 64} (h : FirstInvalid cache i ∨ LeastRecent cache i) (tile : Nat) (d : Tile) :
    cachePlace cache tile d = cache.setIfInBounds i.val (some (placedEntry cache tile d)) := by
  unfold cachePlace
  obtain ⟨hnone, hvalid⟩ | hleast := h
  · rw [findIdx?_toList (i := i) (by rw [hnone]; rfl) fun k hk => Option.isNone_eq_false_iff.2
      (Option.isSome_iff_ne_none.2 (hvalid k hk))]
    rfl
  · have hfull : cache.toList.findIdx? (fun x => x.isNone) = none := by
      refine List.findIdx?_eq_none_iff.2 fun o ho => ?_
      obtain ⟨k, hk, rfl⟩ := Vector.mem_iff_getElem.1 (Vector.mem_toList_iff.1 ho)
      obtain ⟨e, he, hothers⟩ := hleast
      by_cases hki : (⟨k, hk⟩ : Fin 64) = i
      · subst hki
        exact congrArg Option.isNone he
      · obtain ⟨x, hx, -⟩ := hothers ⟨k, hk⟩ hki
        exact congrArg Option.isNone hx
    rw [hfull, oldestIndex_eq hleast]
    rfl

theorem cachePlace_spec {i : Fin 64} (h : FirstInvalid cache i ∨ LeastRecent cache i) (tile : Nat) (d : Tile) :
    (∀ k : Fin 64, k ≠ i → (cachePlace cache tile d)[k] = cache[k]) ∧
      (cachePlace cache tile d)[i] = some (placedEntry cache tile d) := by
  rw [cachePlace_eq h]
  refine ⟨fun k hk => ?_, ?_⟩
  · exact (Vector.getElem_setIfInBounds k.isLt).trans (if_neg (Fin.val_ne_of_ne hk.symm))
  · exact (Vector.getElem_setIfInBounds i.isLt).trans (if_pos rfl)

end Cache

end Sys2Proof.Machine
end

section
/-! TILE_FETCH_COMPLETE of a record that passes, and a FLASH READ that waits for the port (O44). -/

namespace Sys2Proof.Machine

/-! ### The flash port while a job draws on (R126, R142, log 21) -/

section Port

variable (s : State)

theorem report_chart (k : FaultKind) (tile : Option Nat) :
    (s.report k tile).chart = if s.fault.escalates k = true then s.chart.flush else s.chart := by
  unfold State.report
  dsimp only
  rw [State.notify_chart]
  split <;> rfl

/-- The store's handling of a request changes the cache and the working tile alone of the coastline store (R137). -/
theorem serveTile_chart (r : TileRequest) : ∃ cache working,
    (s.serveTile r).1.chart = { s.chart with cache := cache, working := working } := by
  unfold State.serveTile State.serveCached State.serveWorking
  split
  · exact ⟨_, _, rfl⟩
  · split
    · split
      · exact ⟨_, _, rfl⟩
      · split
        · exact ⟨_, _, rfl⟩
        · rw [report_chart]
          split
          · exact ⟨_, _, rfl⟩
          · exact ⟨_, _, rfl⟩
    · split
      · exact ⟨_, _, rfl⟩
      · split
        · exact ⟨_, _, rfl⟩
        · exact ⟨_, _, rfl⟩

/-- An item is drawn, or its fetch awaited, with the flash operation and the flash port as they were (R137, R142). -/
theorem drawItem_port_cases (j : Job) (it : DrawItem) :
    ∃ u : State, u.chart.op = s.chart.op ∧ u.chart.port = s.chart.port ∧
      ((∃ ans, s.drawItem j it = u.settle j it ans) ∨ ∃ tile, s.drawItem j it = u.awaitFetch j tile) := by
  unfold State.drawItem
  split
  · exact ⟨s, rfl, rfl, .inl ⟨_, rfl⟩⟩
  · rename_i r _
    obtain ⟨cache, working, hchart⟩ := serveTile_chart s r
    split
    · rename_i t a he
      rw [he] at hchart
      exact ⟨t, by rw [hchart], by rw [hchart], .inl ⟨a, rfl⟩⟩
    · rename_i t he
      rw [he] at hchart
      exact ⟨t, by rw [hchart], by rw [hchart], .inr ⟨_, rfl⟩⟩

/-- The flash operation is `op`, and the port is a fetch's where the job waits for one, and free otherwise. -/
def State.PortFollows (op : Option FlashOp) (s : State) : Prop :=
  s.chart.op = op ∧ s.chart.port = if s.render.fetchWaits = true then some .fetch else none

variable {s}

theorem drawItem_portFollows {op : Option FlashOp} {j : Job} (it : DrawItem) (h : s.PortFollows op)
    (hj : s.render.job = some j) (hf : j.fetching = none) : (s.drawItem j it).PortFollows op := by
  obtain ⟨hop, hport⟩ := h
  have hfree : s.chart.port = none := by rw [hport, Render.fetchWaits, hj]; simp [hf]
  obtain ⟨u, huop, huport, ⟨ans, he⟩ | ⟨tile, he⟩⟩ := drawItem_port_cases s j it
  · rw [he]
    exact ⟨huop.trans hop, huport.trans hfree⟩
  · rw [he]
    refine ⟨huop.trans hop, ?_⟩
    simp [State.awaitFetch, huport, hfree, Render.fetchWaits, State.setJob]

theorem runJob_portFollows {op : Option FlashOp} (h : s.PortFollows op) : s.runJob.PortFollows op :=
  drawItems_induction (P := State.PortFollows op) (fun _ _ it h hj hf => drawItem_portFollows it h hj hf) s _ h

theorem Chart.grantRead_op (c : Chart) : c.grantRead.op = c.op := by
  unfold Chart.grantRead
  split
  · split <;> rfl
  · rfl

theorem Chart.grantRead_port {c : Chart} (h : c.reading = true) : c.grantRead.port = some (c.port.getD .read) := by
  unfold Chart.grantRead
  split
  next hp => rw [if_pos h, hp]; rfl
  next u hp => rw [hp]; rfl

theorem afterFetch_idle (h : s.chart.reading = false) : s.afterFetch = s := by
  unfold State.afterFetch
  rw [h, if_neg Bool.false_ne_true]

/-- A FLASH READ that waits comes after the fetch to which the job draws on, where there is one (R142, log 21). -/
theorem afterFetch_reading (hr : s.chart.reading = true) (hp : s.chart.port = none) (hw : s.render.fetchWaits = false) :
    s.afterFetch.render = s.runJob.render ∧ s.afterFetch.chart.op = s.chart.op ∧
      s.afterFetch.chart.port = if s.runJob.render.fetchWaits = true then some .fetch else some .read := by
  obtain ⟨hop, hport⟩ := runJob_portFollows (s := s) (op := s.chart.op) ⟨rfl, by rw [hp, hw]; rfl⟩
  have hreading : s.runJob.chart.reading = true := by rw [Chart.reading, hop]; exact hr
  have he : s.afterFetch = s.runJob.setChart s.runJob.chart.grantRead := by
    unfold State.afterFetch
    rw [if_pos hr]
  rw [he, State.setChart_render, State.setChart_chart, Chart.grantRead_op, Chart.grantRead_port hreading, hop, hport]
  refine ⟨rfl, rfl, ?_⟩
  split <;> rfl

end Port

/-! ### A record that passes (R139, R153) -/

section Passes

variable {s : State} {j : Job} {it : DrawItem} {r : TileRequest} {d : Tile} {noise : List Byte}

/-- The end of the fetch with a record that passes: the record kept, the port free, and the item drawn with it (R139, R142). -/
def State.passed (s : State) (j : Job) (it : DrawItem) (r : TileRequest) (d : Tile) : State :=
  ((s.passFetch r.tile d).setChart { (s.passFetch r.tile d).chart with port := none }).settle j it (d.answer r)

theorem tileFetchComplete_passes (h : s.fetchingFor j it r) (hd : s.chart.fetched r.tile noise = some d) :
    exec (.tileFetchComplete noise) s = .next (s.passed j it r d).afterFetch := by
  obtain ⟨hjob, hfetching, hitem, hrequest, hport, hvalid, hchanging⟩ := h
  have hrun : s.runJob = s := runJob_fetching hjob (by rw [hfetching]; rfl)
  have hwaiting : s.waitingFetch = some (j, it, r) := by simp [State.waitingFetch, hjob, hfetching, hitem, hrequest]
  have hend : s.endFetch r noise = (s.passFetch r.tile d, .goesOn (d.answer r)) := by
    simp [State.endFetch, hvalid, hchanging, hd]
  change execTileFetchComplete noise s = _
  simp only [execTileFetchComplete, hrun, hwaiting, hport, hend, State.passed]

theorem passFetch_normal (tile : Nat) (d : Tile) (h : s.fault.mode = .normal) :
    (s.passFetch tile d).chart = { s.chart with
      suspect := s.chart.suspect.filter (· ≠ tile), cache := cachePlace s.chart.cache tile d } := by
  simp only [State.passFetch, h]
  rfl

theorem passFetch_bypass (tile : Nat) (d : Tile) (h : s.fault.mode = .bypass) :
    (s.passFetch tile d).chart = { s.chart with
      suspect := s.chart.suspect.filter (· ≠ tile), working := some (tile, d) } := by
  simp only [State.passFetch, h]
  rfl

/-- What a record that passes leaves of the coastline store in either mode (R139). -/
theorem passFetch_lists (s : State) (tile : Nat) (d : Tile) :
    (s.passFetch tile d).chart.suspect = s.chart.suspect.filter (· ≠ tile) ∧
      (s.passFetch tile d).chart.bad = s.chart.bad ∧ (s.passFetch tile d).chart.op = s.chart.op := by
  cases h : s.fault.mode with
  | normal => rw [passFetch_normal tile d h]; exact ⟨rfl, rfl, rfl⟩
  | bypass => rw [passFetch_bypass tile d h]; exact ⟨rfl, rfl, rfl⟩

theorem passed_chart : (s.passed j it r d).chart = { (s.passFetch r.tile d).chart with port := none } := rfl

/-- The item is drawn with the record's answer (R126). -/
theorem passed_pixels : ((s.passed j it r d).render.buffer j.buffer).pixels =
    j.drawInto s.store (d.answer r) it (s.render.buffer j.buffer).pixels := by
  have hf := frame_passFetch s r.tile d
  rw [State.passed, settle_buffer_same, State.setChart_store, State.setChart_render, hf.store_eq (by simp),
    hf.render_eq (by simp)]

end Passes

/-- Settles O44: the record that is kept, the port after it, and where the record is placed. -/
theorem fetchThatPasses : Obligations.FetchThatPasses := by
  refine ⟨fun s j it r noise d h hd => ?passes, fun u => afterFetch_idle, fun u => afterFetch_reading,
    fun cache tile d i h => ?placed⟩
  case passes =>
    obtain ⟨hsuspect, hbad, hop⟩ := passFetch_lists s r.tile d
    have hfault : (s.passed j it r d).fault = s.fault := (frame_passFetch s r.tile d).fault_eq (by simp)
    refine ⟨_, tileFetchComplete_passes h hd, ?_⟩
    rw [passed_chart, hfault]
    dsimp only
    rw [hsuspect]
    exact ⟨by simp, fun x hx => by simp [hx], hbad, rfl, hop, rfl, rfl, passed_pixels,
      fun hmode => by rw [passFetch_normal _ _ hmode], fun hmode => by rw [passFetch_bypass _ _ hmode]; exact ⟨rfl, rfl⟩⟩
  case placed =>
    obtain ⟨hothers, hplaced⟩ := cachePlace_spec h tile d
    exact ⟨hothers, _, hplaced, rfl, rfl, rfl, fun _ _ => stamp_lt_nextStamp⟩

end Sys2Proof.Machine
end

section
/-! TILE_FETCH_COMPLETE of a record that fails (O45). -/

namespace Sys2Proof.Machine

/-! ### The outcomes of a record that fails (R139, R140) -/

section Outcomes

variable {s : State} {tile : Nat}

/-- A first failure with room on the suspect list (R139). -/
theorem failFetch_first (hn : tile ∉ s.chart.suspect) (hl : s.chart.suspect.length < suspectLimit) :
    s.failFetch tile =
      ((s.setChart { s.chart with suspect := s.chart.suspect ++ [tile] }).report .tileCheck (some tile), .poisoned) := by
  unfold State.failFetch
  rw [if_neg (by simpa using hn), if_pos hl]

/-- A further failure, or a full suspect list, gives the tile up (R139). -/
theorem failFetch_again (h : tile ∈ s.chart.suspect ∨ suspectLimit ≤ s.chart.suspect.length) :
    s.failFetch tile = s.giveUp tile := by
  unfold State.failFetch
  by_cases hm : tile ∈ s.chart.suspect
  · rw [if_pos (by simpa using hm)]
  · rw [if_neg (by simpa using hm), if_neg (Nat.not_lt.2 (h.resolve_left hm))]

/-- The coastline store once a tile has joined the bad tile list (R139). -/
def Chart.withBad (c : Chart) (tile : Nat) : Chart :=
  { c with suspect := c.suspect.filter (· ≠ tile), bad := c.bad ++ [tile], cache := cacheDrop c.cache tile }

theorem giveUp_bad (h : s.chart.bad.length < badLimit) :
    s.giveUp tile = ((s.setChart (s.chart.withBad tile)).report .tileBad (some tile), .goesOn Answer.sea) := by
  unfold State.giveUp
  exact if_pos h

/-- The coastline store once it has failed for want of room on the bad tile list (R140). -/
def Chart.withFailure (c : Chart) (tile : Nat) : Chart :=
  { c.flush with suspect := c.suspect.filter (· ≠ tile), directory := none, state := .failed }

theorem setStoreState_changes {st : StoreState} (h : s.chart.state ≠ st) :
    s.setStoreState st = (s.setChart { s.chart with state := st }).notify .forecast (.chartState st) := if_neg h

/-- A full bad tile list fails the store, which is notified ahead of the fault (R135, R140, log 18). -/
theorem giveUp_fails (h : badLimit ≤ s.chart.bad.length) (hs : s.chart.state ≠ .failed) :
    s.giveUp tile =
      (((s.setChart (s.chart.withFailure tile)).notify .forecast (.chartState .failed)).report .storeFailed none,
        .poisoned) := by
  unfold State.giveUp
  dsimp only
  rw [if_neg (Nat.not_lt.2 h), setStoreState_changes]
  · rfl
  · exact hs

theorem cacheDrop_ne {cache : Vector (Option CacheEntry) 64} {i : Fin 64} {e : CacheEntry}
    (h : (cacheDrop cache tile)[i] = some e) : e.tile ≠ tile := by
  unfold cacheDrop at h
  rw [Fin.getElem_fin, Vector.getElem_map] at h
  split at h
  · exact nomatch h
  · obtain ⟨hne, hsome⟩ := Option.ite_none_left_eq_some.1 h
    exact Option.some.inj hsome ▸ hne

/-- A HARD fault leaves the coastline store (R149). -/
theorem report_hard_chart (s : State) {k : FaultKind} (tile : Option Nat) (h : k.severity = .hard) :
    (s.report k tile).chart = s.chart := by
  rw [report_chart, escalates_hard _ h, if_neg Bool.false_ne_true]

theorem report_fault (s : State) (k : FaultKind) (tile : Option Nat) :
    (s.report k tile).fault = s.fault.capture k tile s.timing.frame := by
  unfold State.report
  dsimp only
  rw [State.notify_fault]
  split <;> rfl

/-- A fault queues its FAULT notice on the forecast link (R150). -/
theorem report_forecast (s : State) (k : FaultKind) (tile : Option Nat) :
    (s.report k tile).forecast = Port.notify ((Notice.fault k tile).packet s.timing.frame) s.forecast := by
  unfold State.report
  dsimp only
  split <;> rfl

end Outcomes

/-! ### The end of the fetch -/

section Ends

variable {s : State} {j : Job} {it : DrawItem} {r : TileRequest} {noise : List Byte}

/-- The end of the fetch with a record that fails, up to what a waiting FLASH READ makes of the free port (R139, R142). -/
def State.failed (s : State) (j : Job) (it : DrawItem) (r : TileRequest) : State :=
  let e := s.failFetch r.tile
  let u := e.1.setChart { e.1.chart with port := none }
  match e.2 with
  | .goesOn a => u.settle j it a
  | .poisoned => u.discardJob j r.tile

theorem tileFetchComplete_failed (h : s.fetchingFor j it r) (hf : s.chart.fetched r.tile noise = none) :
    exec (.tileFetchComplete noise) s = .next (s.failed j it r).afterFetch := by
  rw [tileFetchComplete_fails h hf, State.failed]
  dsimp only
  cases (s.failFetch r.tile).2 <;> rfl

theorem failed_goesOn {t : State} {a : Answer} (h : s.failFetch r.tile = (t, .goesOn a)) :
    s.failed j it r = (t.setChart { t.chart with port := none }).settle j it a := by
  simp only [State.failed, h]

theorem failed_poisoned {t : State} (h : s.failFetch r.tile = (t, .poisoned)) :
    s.failed j it r = (t.setChart { t.chart with port := none }).discardJob j r.tile := by
  simp only [State.failed, h]

end Ends

/-! ### A poisoned job (R127, R129, R130) -/

section Poisoned

variable (s : State) (j : Job) (tile : Nat)

theorem discardJob_chart : (s.discardJob j tile).chart = { s.chart with
    cache := (s.discardJob j tile).chart.cache, working := (s.discardJob j tile).chart.working } := by
  unfold State.discardJob
  rw [endJob_chart]
  rfl

theorem discardJob_record : (s.discardJob j tile).fault.record = s.fault.record := by
  unfold State.discardJob
  rw [endJob_record]
  rfl

variable {s}

/-- A CACHE RESTORE leaves the cache empty where it is (R155). -/
theorem applyRestore_cache (l : Link) (h : ∀ i : Fin 64, s.chart.cache[i] = none) (i : Fin 64) :
    (s.applyRestore l).chart.cache[i] = none := by
  obtain hc | hc := applyRestore_chart s l
  · rw [hc]
    exact h i
  · rw [hc]
    exact s.chart.flush_cache i

theorem gapWork_cache (h : ∀ i : Fin 64, s.chart.cache[i] = none) : ∀ i : Fin 64, s.gapWork.chart.cache[i] = none :=
  applyRestore_cache _ (applyRestore_cache _ (by rw [(frame_applyDeferred s).chart_eq (by simp)]; exact h))

theorem discardJob_cache (h : ∀ i : Fin 64, s.chart.cache[i] = none) :
    ∀ i : Fin 64, (s.discardJob j tile).chart.cache[i] = none := by
  unfold State.discardJob State.endJob
  exact gapWork_cache h

theorem discardJob_buffer : (s.discardJob j tile).render.buffer j.buffer = { s.render.buffer j.buffer with role := .free } := by
  rw [discardJob_render]
  exact (Render.buffer_congr rfl rfl _).trans (Render.setBuffer_same s.render _ _)

theorem discardJob_job : (s.discardJob j tile).render.job = none := by rw [discardJob_render]

variable {j tile} {it : DrawItem} {r : TileRequest}

/-- In state `b` a fault of kind `k`, naming `x`, has been reported and has poisoned job `j` over tile `tile`, and `u` is the state that
the job's end and the work that waited for it leave (R127, R129, R130, R149, R150). -/
structure Poisoned (b u : State) (j : Job) (tile : Nat) (k : FaultKind) (x : Option Nat) : Prop where
  gap : ∃ q : State, u = q.gapWork ∧ (q.nothingWaits → u = q) ∧ q.fault = b.fault.capture k x b.timing.frame ∧
    q.forecast = Port.notify ((Notice.fault k x).packet b.timing.frame) b.forecast ∧
    q.studio = Port.notify ((Notice.frameDiscarded (some tile) j.page j.frame).packet b.timing.frame) b.studio
  job : u.render.job = none
  buffer : u.render.buffer j.buffer = { b.render.buffer j.buffer with role := .free }
  record : u.fault.record = (b.fault.capture k x b.timing.frame).record
  chart : u.chart = { b.chart with port := none, cache := u.chart.cache, working := u.chart.working }
  cache : (∀ i : Fin 64, b.chart.cache[i] = none) → ∀ i : Fin 64, u.chart.cache[i] = none

theorem failed_poisons {b : State} {k : FaultKind} {x : Option Nat} (hk : k.severity = .hard)
    (h : s.failFetch r.tile = (b.report k x, .poisoned)) : Poisoned b (s.failed j it r) j r.tile k x := by
  have hframe := frame_report b k x
  have hchart := report_hard_chart b x hk
  rw [failed_poisoned h, hchart]
  constructor
  case gap =>
    obtain ⟨q, hgap, hfault, hforecast, hstudio⟩ :=
      discardJob_gap ((b.report k x).setChart { b.chart with port := none }) j r.tile
    refine ⟨q, hgap, fun hn => hgap.trans (gapWork_nothing hn), hfault.trans (report_fault b k x),
      hforecast.trans (report_forecast b k x), hstudio.trans ?_⟩
    rw [State.setChart_timing, State.setChart_studio, hframe.timing_eq (by simp) (by simp)]
    exact congrArg _ (hframe.port_eq .studio (by simp))
  case job => exact discardJob_job _ _
  case buffer => rw [discardJob_buffer, State.setChart_render, hframe.render_eq (by simp)]
  case record => rw [discardJob_record, State.setChart_fault, report_fault]
  case chart => exact discardJob_chart _ _ _
  case cache => exact fun hempty => discardJob_cache _ _ hempty

end Poisoned

/-! ### A tile given up (R139) -/

section GivenUp

variable {s : State} {j : Job} {it : DrawItem} {r : TileRequest}

/-- The state once a tile has been given up and the job has drawn on with sea (R139). -/
theorem failed_givenUp (h : s.failFetch r.tile =
    ((s.setChart (s.chart.withBad r.tile)).report .tileBad (some r.tile), .goesOn Answer.sea)) :
    let u := s.failed j it r
    u.chart = { s.chart.withBad r.tile with port := none } ∧
      u.fault = s.fault.capture .tileBad (some r.tile) s.timing.frame ∧
      u.forecast = Port.notify ((Notice.fault .tileBad (some r.tile)).packet s.timing.frame) s.forecast ∧
      u.studio = s.studio ∧ u.render.job = some { j with drawn := j.drawn + 1, fetching := none } ∧
      (u.render.buffer j.buffer).pixels = j.drawInto s.store Answer.sea it (s.render.buffer j.buffer).pixels := by
  have hframe := frame_report (s.setChart (s.chart.withBad r.tile)) .tileBad (some r.tile)
  have hchart := report_hard_chart (s.setChart (s.chart.withBad r.tile)) (some r.tile) (k := .tileBad) rfl
  rw [failed_goesOn h, hchart]
  refine ⟨rfl, report_fault _ _ _, report_forecast _ _ _, hframe.port_eq .studio (by simp), rfl, ?_⟩
  rw [settle_buffer_same, State.setChart_store, State.setChart_render, hframe.store_eq (by simp), hframe.render_eq (by simp)]
  rfl

end GivenUp

/-- Settles O45, by the three outcomes: a first failure, a further one, and one with no room on the bad tile list. -/
theorem fetchThatFails : Obligations.FetchThatFails := by
  intro s j it r noise h hd n discarded
  have hexec := tileFetchComplete_failed h hd
  obtain ⟨-, -, -, -, -, hvalid, -⟩ := h
  by_cases hfirst : r.tile ∉ s.chart.suspect ∧ s.chart.suspect.length < suspectLimit
  case pos =>
    obtain ⟨hn, hl⟩ := hfirst
    have further : ¬(r.tile ∈ s.chart.suspect ∨ 8 ≤ s.chart.suspect.length) := not_or.2 ⟨hn, Nat.not_le.2 hl⟩
    obtain ⟨hgap, hjob, hbuffer, hrecord, hchart, -⟩ := failed_poisons (j := j) (it := it) rfl (failFetch_first hn hl)
    refine ⟨_, hexec, ?port, fun _ _ => ⟨hgap, ?suspect, ?bad, ?state, hjob, hrecord, ?role, ?tag⟩,
      fun hagain => absurd hagain further, fun hagain => absurd hagain further⟩
    case port => rw [hchart]
    case suspect => rw [hchart]; rfl
    case bad => rw [hchart]; rfl
    case state => rw [hchart]; exact hvalid
    case role => rw [hbuffer]
    case tag => rw [hbuffer]; rfl
  case neg =>
    have hagain : r.tile ∈ s.chart.suspect ∨ suspectLimit ≤ s.chart.suspect.length := by
      rwa [not_and_or, not_not, Nat.not_lt] at hfirst
    by_cases hroom : s.chart.bad.length < badLimit
    case pos =>
      obtain ⟨hchart, hfault, hforecast, hstudio, hjob, hpixels⟩ :=
        failed_givenUp (j := j) (it := it) ((failFetch_again hagain).trans (giveUp_bad hroom))
      refine ⟨_, hexec, ?port, fun hn hl => absurd ⟨hn, hl⟩ hfirst,
        fun _ _ => ⟨hfault, hforecast, hstudio, ?suspect, ?bad, ?state, hjob, hpixels, fun i e he => ?cache⟩,
        fun _ hfull => absurd hroom (Nat.not_lt.2 hfull)⟩
      case port => rw [hchart]
      case suspect => rw [hchart]; simp [Chart.withBad]
      case bad => rw [hchart]; rfl
      case state => rw [hchart]; exact hvalid
      case cache =>
        rw [hchart] at he
        exact cacheDrop_ne he
    case neg =>
      have hstanding : s.chart.state ≠ .failed := by rw [hvalid]; decide
      obtain ⟨hgap, hjob, hbuffer, hrecord, hchart, hcache⟩ := failed_poisons (j := j) (it := it) rfl
        ((failFetch_again hagain).trans (giveUp_fails (Nat.not_lt.1 hroom) hstanding))
      refine ⟨_, hexec, ?port, fun hn hl => absurd ⟨hn, hl⟩ hfirst, fun _ hfree => absurd hfree hroom,
        fun _ _ => ⟨hgap, hrecord, ?state, ?bad, ?directory, hjob, ?role, hcache s.chart.flush_cache⟩⟩
      case port => rw [hchart]
      case state => rw [hchart]; rfl
      case bad => rw [hchart]; rfl
      case directory => rw [hchart]; rfl
      case role => rw [hbuffer]

end Sys2Proof.Machine
end

section
/-! What the limits of the queues and lists and the canonical form of the memories ask of each block, and how every shared operation
keeps it (O3). -/

namespace Sys2Proof.Machine

/-! ### What a change of each block keeps -/

/-- The suspect list and the bad tile list stay within their limits, and the chart flash canonical (R132, R139). -/
structure Chart.LimitsKept (c d : Chart) : Prop where
  suspect : c.suspect.length ≤ suspectLimit → d.suspect.length ≤ suspectLimit
  bad : c.bad.length ≤ badLimit → d.bad.length ≤ badLimit
  flash : Mem.wf flashDefault c.flash = true → Mem.wf flashDefault d.flash = true

/-- The pixels of each frame buffer stay canonical (R109). -/
def Render.LimitsKept (r q : Render) : Prop :=
  ∀ w, Mem.wf pixelDefault (r.buffer w).pixels = true → Mem.wf pixelDefault (q.buffer w).pixels = true

/-- The rows of both banks stay canonical (R51). -/
def FieldSet.LimitsKept (v w : FieldSet) : Prop :=
  ∀ second, Mem.wf rowDefault (v.bank second).values = true → Mem.wf rowDefault (w.bank second).values = true

/-- What a change of one block keeps of the limits and of the canonical forms (R139, R167). -/
def limitKept (b : Block) (s t : State) : Prop :=
  match b with
  | .port l => (s.port l).bounded → (t.port l).bounded
  | .chart => s.chart.LimitsKept t.chart
  | .render => s.render.LimitsKept t.render
  | .store => ∀ f : Fin 4, s.store.sets[f].LimitsKept t.store.sets[f]
  | _ => True

/-- Every block keeps what the limits and the canonical forms ask of it. -/
def LimitsKept (s t : State) : Prop := ∀ b, limitKept b s t

theorem Chart.LimitsKept.refl (c : Chart) : c.LimitsKept c := ⟨id, id, id⟩

theorem Chart.LimitsKept.trans {c d e : Chart} (h : c.LimitsKept d) (g : d.LimitsKept e) : c.LimitsKept e :=
  ⟨g.suspect ∘ h.suspect, g.bad ∘ h.bad, g.flash ∘ h.flash⟩

/-- A change of the coastline store outside its lists and its flash. -/
theorem Chart.LimitsKept.of_fields {c d : Chart} (hs : d.suspect = c.suspect := by rfl)
    (hb : d.bad = c.bad := by rfl) (hf : d.flash = c.flash := by rfl) : c.LimitsKept d := by
  constructor
  · rw [hs]; exact id
  · rw [hb]; exact id
  · rw [hf]; exact id

/-- A change of the render controller outside the pixels of its buffers. -/
theorem Render.LimitsKept.of_pixels {r q : Render} (h : ∀ w, (q.buffer w).pixels = (r.buffer w).pixels) :
    r.LimitsKept q := fun w hw => by rwa [h w]

/-- A change of the render controller outside its buffers. -/
theorem Render.LimitsKept.of_fields {r q : Render} (ha : q.bufferA = r.bufferA := by rfl)
    (hb : q.bufferB = r.bufferB := by rfl) : r.LimitsKept q :=
  .of_pixels fun w => congrArg FrameBuffer.pixels (Render.buffer_congr ha hb w)

theorem FieldSet.LimitsKept.refl (v : FieldSet) : v.LimitsKept v := fun _ => id

theorem limitKept_of_agree {b : Block} {s t : State} (h : agree b s t) : limitKept b s t := by
  cases b with
  | port l => exact (congrArg Port.bounded (show t.port l = s.port l from h)).mpr
  | chart =>
    have he : t.chart = s.chart := h
    exact Chart.LimitsKept.of_fields (by rw [he]) (by rw [he]) (by rw [he])
  | render => exact Render.LimitsKept.of_pixels fun w => by rw [show t.render = s.render from h]
  | store => exact fun f => (show t.store = s.store from h) ▸ FieldSet.LimitsKept.refl _
  | _ => trivial

theorem LimitsKept.refl (s : State) : LimitsKept s s := fun b => limitKept_of_agree (agree_refl b s)

theorem LimitsKept.trans {s t u : State} (h : LimitsKept s t) (g : LimitsKept t u) : LimitsKept s u := fun b => by
  have hb := h b
  have gb := g b
  cases b with
  | port l => exact gb ∘ hb
  | chart => exact hb.trans gb
  | render => exact fun w => gb w ∘ hb w
  | store => exact fun f second => gb f second ∘ hb f second
  | _ => trivial

/-- The blocks that a change leaves keep everything, so that those it lists alone matter. -/
theorem Frame.limitsKept {bs : List Block} {s t : State} (hf : Frame bs s t) (h : ∀ b ∈ bs, limitKept b s t) :
    LimitsKept s t := fun b => by
  by_cases hb : b ∈ bs
  · exact h b hb
  · exact limitKept_of_agree (hf b hb)

/-- The blocks on which no limit and no canonical form bears. -/
abbrev unlimitedBlocks : List Block :=
  [.clock, .keyEnable, .timing, .output, .pages, .timelines, .blinks, .fault, .memo, .ahead, .freeCount, .queue]

theorem Frame.limitsKept_unlimited {bs : List Block} {s t : State} (hf : Frame bs s t)
    (h : ∀ b ∈ bs, b ∈ unlimitedBlocks) : LimitsKept s t :=
  hf.limitsKept fun b hb => by
    have hfree := h b hb
    cases b with
    | port | chart | render | store => simp at hfree
    | _ => trivial

/-- The limits of the queues and lists are kept (R139, R167). -/
theorem LimitsKept.bounded {s t : State} (h : LimitsKept s t) (hs : s.bounded) : t.bounded := by
  obtain ⟨hforecast, hstudio, hsuspect, hbad⟩ := hs
  have hchart : s.chart.LimitsKept t.chart := h .chart
  exact ⟨h (.port .forecast) hforecast, h (.port .studio) hstudio, hchart.suspect hsuspect, hchart.bad hbad⟩

/-- The canonical form of the memories is kept (log 13, log 14). -/
theorem LimitsKept.canonical {s t : State} (h : LimitsKept s t) (hs : s.canonical) : t.canonical := by
  obtain ⟨hflash, ha, hb, hsets⟩ := hs
  have hchart : s.chart.LimitsKept t.chart := h .chart
  refine ⟨hchart.flash hflash, h .render .a ha, h .render .b hb, fun f => ?_⟩
  obtain ⟨h0, h1⟩ := hsets f
  exact ⟨h .store f false h0, h .store f true h1⟩

/-! ### One write of a limited block -/

section Writes

variable {s t : State}

theorem limitsKept_mapPort (s : State) (l : Link) {g : Port → Port} (hg : ∀ p : Port, p.bounded → (g p).bounded) :
    LimitsKept s (s.mapPort l g) :=
  (frame_mapPort s l g).limitsKept fun b hb => by
    obtain rfl := List.mem_singleton.1 hb
    exact fun h => (State.mapPort_port s l g).symm ▸ hg _ h

theorem limitsKept_notify (s : State) (l : Link) (n : Notice) : LimitsKept s (s.notify l n) :=
  limitsKept_mapPort s l fun _ => Port.bounded_notify _

theorem limitsKept_finish (s : State) (l : Link) (st : Status) (r : List Byte) : LimitsKept s (s.finish l st r) :=
  limitsKept_mapPort s l fun _ => Port.bounded_finish st r

theorem limitsKept_refuse (s : State) (code : BitVec 7) (p : Packet) (st : Status) : LimitsKept s (s.refuse code p st) :=
  limitsKept_mapPort s p.link fun _ => Port.bounded_reply _ _ _ _ _

theorem limitsKept_setChart {v : Chart} (h : s.chart.LimitsKept v) : LimitsKept s (s.setChart v) :=
  (frame_setChart s v).limitsKept fun b hb => by
    obtain rfl := List.mem_singleton.1 hb
    exact h

theorem limitsKept_setRender {v : Render} (h : s.render.LimitsKept v) : LimitsKept s (s.setRender v) :=
  (frame_setRender s v).limitsKept fun b hb => by
    obtain rfl := List.mem_singleton.1 hb
    exact h

theorem limitsKept_setStore {v : FieldStore} (h : ∀ f : Fin 4, s.store.sets[f].LimitsKept v.sets[f]) :
    LimitsKept s (s.setStore v) :=
  (frame_setStore s v).limitsKept fun b hb => by
    obtain rfl := List.mem_singleton.1 hb
    exact h

theorem limitsKept_setFieldSet {f : Fin 4} {v : FieldSet} (h : s.store.sets[f].LimitsKept v) :
    LimitsKept s (s.setFieldSet f v) :=
  limitsKept_setStore fun g => by
    by_cases hg : g = f
    · subst hg
      exact (State.setFieldSet_same s g v).symm ▸ h
    · exact (State.setFieldSet_other s hg v).symm ▸ FieldSet.LimitsKept.refl _

/-- An answer after a change that keeps the limits. -/
theorem LimitsKept.answered (h : LimitsKept s t) (l : Link) (st : Status) (r : List Byte) :
    LimitsKept s (t.finish l st r) := h.trans (limitsKept_finish t l st r)

theorem limitsKept_notifyAll (s : State) (l : Link) (ns : List Notice) : LimitsKept s (s.notifyAll l ns) := by
  induction ns generalizing s with
  | nil => exact LimitsKept.refl s
  | cons n rest ih => exact (limitsKept_notify s l n).trans (ih _)

theorem limitsKept_queueAll (s : State) (ps : List Posting) : LimitsKept s (s.queueAll ps) := by
  induction ps generalizing s with
  | nil => exact LimitsKept.refl s
  | cons p rest ih => exact (limitsKept_notify s p.link p.notice).trans (ih _)

theorem limitsKept_notifyReference (s : State) (before : RefState) : LimitsKept s (s.notifyReference before) := by
  unfold State.notifyReference
  split
  · exact LimitsKept.refl s
  · exact (limitsKept_notify s _ _).trans (limitsKept_notify _ _ _)

theorem limitsKept_notifyOutput (s : State) (before : OutputState) : LimitsKept s (s.notifyOutput before) := by
  unfold State.notifyOutput
  split
  · exact LimitsKept.refl s
  · exact limitsKept_notify s _ _

end Writes

/-! ### Arriving packets and command handling (R162) -/

section Handling

variable (s : State) (p : Packet)

theorem limitsKept_arrive : LimitsKept s (s.arrive p) :=
  ((frame_advanceTo s p.time).limitsKept_unlimited (by simp)).trans (limitsKept_mapPort _ p.link fun _ => id)

theorem limitsKept_taken (k : Kind) : LimitsKept s (s.taken k p) :=
  (limitsKept_arrive s p).trans (limitsKept_mapPort _ p.link fun _ => id)

/-- A packet command keeps the limits where its owner does. -/
theorem limitsKept_serve {k : Kind} {own : Packet → State → State} (h : ∀ t, LimitsKept t (own p t)) :
    LimitsKept s (serve k p own s) :=
  serve_cases (P := LimitsKept s) (LimitsKept.refl s)
    (fun st => (limitsKept_arrive s p).trans (limitsKept_refuse _ _ p st)) ((limitsKept_taken s p k).trans (h _))

end Handling

/-! ### The coastline store and the fault unit (R137-R142) -/

section Store

variable (s : State)

/-- A report flushes the cache at most (R149). -/
theorem limitsKept_report (k : FaultKind) (tile : Option Nat) : LimitsKept s (s.report k tile) := by
  unfold State.report
  dsimp only
  refine LimitsKept.trans ?_ (limitsKept_notify _ _ _)
  split
  · exact ((frame_setFault s _).limitsKept_unlimited (by simp)).trans
      (limitsKept_setChart .of_fields)
  · exact (frame_setFault s _).limitsKept_unlimited (by simp)

theorem limitsKept_setStoreState (st : StoreState) : LimitsKept s (s.setStoreState st) := by
  unfold State.setStoreState
  split
  · exact LimitsKept.refl s
  · exact (limitsKept_setChart .of_fields).trans (limitsKept_notify _ _ _)

/-- A request changes the cache and the working tile, and may report a fault (R137, R151). -/
theorem limitsKept_serveTile (r : TileRequest) : LimitsKept s (s.serveTile r).1 := by
  unfold State.serveTile
  split
  · exact LimitsKept.refl s
  · split
    · unfold State.serveCached
      split
      · exact LimitsKept.refl s
      · split
        · exact limitsKept_setChart .of_fields
        · exact (limitsKept_setChart .of_fields).trans (limitsKept_report _ _ _)
    · unfold State.serveWorking
      split
      · exact LimitsKept.refl s
      · split
        · exact LimitsKept.refl s
        · exact limitsKept_setChart .of_fields

/-- A tile leaves the suspect list when its record passes (R139). -/
theorem limitsKept_passFetch (tile : Nat) (d : Tile) : LimitsKept s (s.passFetch tile d) := by
  have hshorter : s.chart.suspect.length ≤ suspectLimit →
      (s.chart.suspect.filter (· ≠ tile)).length ≤ suspectLimit := (List.length_filter_le _ _).trans
  unfold State.passFetch
  dsimp only
  split
  · exact limitsKept_setChart ⟨hshorter, id, id⟩
  · exact limitsKept_setChart ⟨hshorter, id, id⟩

/-- A tile joins the bad tile list where that has room (R139, R140). -/
theorem limitsKept_giveUp (tile : Nat) : LimitsKept s (s.giveUp tile).1 := by
  have hshorter : s.chart.suspect.length ≤ suspectLimit →
      (s.chart.suspect.filter (· ≠ tile)).length ≤ suspectLimit := (List.length_filter_le _ _).trans
  unfold State.giveUp
  dsimp only
  split
  · rename_i hroom
    have hjoined : (s.chart.bad ++ [tile]).length ≤ badLimit := by
      rw [List.length_append, List.length_singleton]
      exact hroom
    exact (limitsKept_setChart (by exact ⟨hshorter, fun _ => hjoined, id⟩)).trans (limitsKept_report _ _ _)
  · exact ((limitsKept_setChart (by exact ⟨hshorter, id, id⟩)).trans (limitsKept_setStoreState _ _)).trans
      (limitsKept_report _ _ _)

/-- A tile joins the suspect list where that has room, and is given up otherwise (R139). -/
theorem limitsKept_failFetch (tile : Nat) : LimitsKept s (s.failFetch tile).1 := by
  unfold State.failFetch
  split
  · exact limitsKept_giveUp s tile
  · split
    · rename_i hroom
      have hjoined : (s.chart.suspect ++ [tile]).length ≤ suspectLimit := by
        rw [List.length_append, List.length_singleton]
        exact hroom
      exact (limitsKept_setChart (by exact ⟨fun _ => hjoined, id, id⟩)).trans (limitsKept_report _ _ _)
    · exact limitsKept_giveUp s tile

theorem limitsKept_endFetch (r : TileRequest) (noise : List Byte) : LimitsKept s (s.endFetch r noise).1 := by
  unfold State.endFetch
  split
  · exact LimitsKept.refl s
  · split
    · exact limitsKept_passFetch s _ _
    · exact limitsKept_failFetch s _

/-- A program or an erase empties the lists and leaves the flash that it makes (R145, R146). -/
theorem limitsKept_flashChanged {flash : Mem Byte}
    (h : Mem.wf flashDefault s.chart.flash = true → Mem.wf flashDefault flash = true) :
    LimitsKept s (s.flashChanged flash) :=
  (limitsKept_setChart (by exact ⟨fun _ => Nat.zero_le _, fun _ => Nat.zero_le _, h⟩)).trans (limitsKept_setStoreState _ _)

theorem limitsKept_scanEnds (commanded : Bool) (bytes : List Byte) : LimitsKept s (s.scanEnds commanded bytes) := by
  have hended (v : Option (List DirEntry)) (st : StoreState) :
      LimitsKept s ((s.setChart { s.chart with directory := v, op := none }).setStoreState st) :=
    (limitsKept_setChart .of_fields).trans (limitsKept_setStoreState _ _)
  unfold State.scanEnds
  split
  · exact hended _ _
  · dsimp only
    split
    · exact (hended _ _).trans (limitsKept_report _ _ _)
    · exact hended _ _

end Store

end Sys2Proof.Machine
end

section
/-! The drawing, the end of a job and the frame start keep the limits of the queues and lists and the canonical form of the memories
(O3). -/

namespace Sys2Proof.Machine

/-! ### The pixels that an item leaves (R115, R117) -/

/-- The background lists the pixels of the screen window line by line, at rising addresses (R115, log 14). -/
theorem PageRecord.background_wf (r : PageRecord) : Mem.wf pixelDefault r.background = true := by
  unfold PageRecord.background
  split
  · exact Mem.wf_nil
  · rename_i hsea
    refine (Mem.wf_iff _).2 ⟨List.pairwise_flatMap.2 ⟨fun row _ => ?line, ?lines⟩, fun c hc => ?value⟩
    case line => exact List.pairwise_map.2 (List.pairwise_lt_range.imp fun h => by dsimp only; omega)
    case lines =>
      refine List.pairwise_lt_range.imp fun {row next} hrow x hx y hy => ?_
      obtain ⟨col, hcol, rfl⟩ := List.mem_map.1 hx
      obtain ⟨col', -, rfl⟩ := List.mem_map.1 hy
      have hline := List.mem_range.1 hcol
      dsimp only
      omega
    case value =>
      obtain ⟨row, -, hin⟩ := List.mem_flatMap.1 hc
      obtain ⟨col, -, rfl⟩ := List.mem_map.1 hin
      exact hsea

theorem drawInto_wf (j : Job) (store : FieldStore) (ans : Answer) (it : DrawItem) {px : Mem Nat}
    (h : Mem.wf pixelDefault px = true) : Mem.wf pixelDefault (j.drawInto store ans it px) = true := by
  by_cases hit : it = .background
  · subst hit
    exact j.record.background_wf
  · rw [drawInto_painted j store ans hit]
    exact Mem.wf_writeAll h _

/-! ### Drawing (R126) -/

section Drawing

variable (s : State) (j : Job)

theorem limitsKept_settle (it : DrawItem) (ans : Answer) : LimitsKept s (s.settle j it ans) := by
  refine limitsKept_setRender fun w h => ?_
  change Mem.wf pixelDefault ((s.settle j it ans).render.buffer w).pixels = true
  by_cases hw : w = j.buffer
  · subst hw
    rw [settle_buffer_same]
    exact drawInto_wf j s.store ans it h
  · rwa [settle_buffer_other s j it ans hw]

theorem limitsKept_setJob (v : Option Job) : LimitsKept s (s.setJob v) :=
  limitsKept_setRender .of_fields

theorem limitsKept_awaitFetch (tile : Nat) : LimitsKept s (s.awaitFetch j tile) :=
  (limitsKept_setJob s _).trans (limitsKept_setChart .of_fields)

theorem limitsKept_drawItem (it : DrawItem) : LimitsKept s (s.drawItem j it) := by
  unfold State.drawItem
  split
  · exact limitsKept_settle s j it _
  · rename_i r _
    have hserved := limitsKept_serveTile s r
    split
    · rename_i t a he
      rw [he] at hserved
      exact hserved.trans (limitsKept_settle t j it a)
    · rename_i t he
      rw [he] at hserved
      exact hserved.trans (limitsKept_awaitFetch t j _)

theorem limitsKept_drawItems (items : List DrawItem) : LimitsKept s (s.drawItems items) :=
  drawItems_induction (P := LimitsKept s) (fun t j it h _ _ => h.trans (limitsKept_drawItem t j it)) s items
    (LimitsKept.refl s)

theorem limitsKept_runJob : LimitsKept s s.runJob := limitsKept_drawItems s _

theorem Chart.limitsKept_grantRead (c : Chart) : c.LimitsKept c.grantRead := by
  unfold Chart.grantRead
  split
  · split
    · exact .of_fields
    · exact .refl c
  · exact .refl c

theorem limitsKept_afterFetch : LimitsKept s s.afterFetch := by
  unfold State.afterFetch
  split
  · exact (limitsKept_runJob s).trans (limitsKept_setChart (Chart.limitsKept_grantRead _))
  · exact LimitsKept.refl s

end Drawing

/-! ### The end of a job and the work waiting for it (R128-R130, R155) -/

section Jobs

variable (s : State)

theorem limitsKept_applyDeferred : LimitsKept s s.applyDeferred := by
  unfold State.applyDeferred
  split
  · exact LimitsKept.refl s
  · refine ((limitsKept_setStore fun f => ?_).trans (limitsKept_setRender .of_fields)).answered _ _ _
    rw [FieldStore.apply_sets]
    exact FieldSet.LimitsKept.refl _

theorem limitsKept_deferWrite (w : DeferredWrite) : LimitsKept s (s.deferWrite w) := by
  have hqueued (d : List DeferredWrite) : LimitsKept s (s.setRender { s.render with deferred := d }) :=
    limitsKept_setRender .of_fields
  unfold State.deferWrite
  dsimp only
  split
  · exact (hqueued _).trans (limitsKept_applyDeferred _)
  · exact hqueued _

theorem limitsKept_restoreCache (l : Link) : LimitsKept s (s.restoreCache l) := by
  unfold State.restoreCache
  exact ((limitsKept_setChart .of_fields).trans
    ((frame_setFault _ _).limitsKept_unlimited (by simp))).answered _ _ _

theorem limitsKept_applyRestore (l : Link) : LimitsKept s (s.applyRestore l) := by
  unfold State.applyRestore
  split
  · exact limitsKept_restoreCache s l
  · exact LimitsKept.refl s

theorem limitsKept_gapWork : LimitsKept s s.gapWork :=
  ((limitsKept_applyDeferred s).trans (limitsKept_applyRestore _ .forecast)).trans (limitsKept_applyRestore _ .studio)

theorem limitsKept_endJob : LimitsKept s s.endJob :=
  ((limitsKept_setJob s none).trans (limitsKept_setChart .of_fields)).trans (limitsKept_gapWork _)

/-- A buffer's role and tag change with its pixels as they were. -/
theorem Render.limitsKept_setBuffer (r : Render) (which : BufferId) {v : FrameBuffer}
    (h : v.pixels = (r.buffer which).pixels) : r.LimitsKept (r.setBuffer which v) :=
  .of_pixels fun w => by
    by_cases hw : w = which
    · subst hw
      rwa [Render.setBuffer_same]
    · rw [Render.setBuffer_other r hw]

theorem limitsKept_completeJob (j : Job) : LimitsKept s (s.completeJob j) := by
  have hready : LimitsKept s (s.setRender (s.render.setBuffer j.buffer { s.render.buffer j.buffer with
      role := .ready, tag := if j.contentStands then some j.page else none })) :=
    limitsKept_setRender (s.render.limitsKept_setBuffer j.buffer rfl)
  unfold State.completeJob
  dsimp only
  generalize s.setRender _ = u at hready ⊢
  split
  · exact ((hready.trans (limitsKept_setRender .of_fields)).trans (limitsKept_notify _ _ _)).trans (limitsKept_endJob _)
  · exact hready.trans (limitsKept_endJob _)

theorem limitsKept_discardJob (j : Job) (tile : Nat) : LimitsKept s (s.discardJob j tile) := by
  unfold State.discardJob
  exact ((limitsKept_setRender (s.render.limitsKept_setBuffer j.buffer (by rfl))).trans
    (limitsKept_notify _ _ _)).trans (limitsKept_endJob _)

end Jobs

/-! ### The frame start (R5, R58, R110, R111) -/

section Frames

variable (s : State)

/-- A flip changes roles and maps alone of the banks (R59). -/
theorem FieldSet.limitsKept_flip (v : FieldSet) : v.LimitsKept v.flip := by
  cases hp : v.findRole .pending with
  | none =>
    rw [FieldSet.flip_noPending hp]
    exact FieldSet.LimitsKept.refl v
  | some second =>
    rw [FieldSet.flip_pending hp]
    cases second <;> exact fun w h => by cases w <;> exact h

theorem limitsKept_flipsFrame : LimitsKept s s.flipsFrame :=
  (frame_flipsFrame s).limitsKept fun b hb => by
    obtain rfl := List.mem_singleton.1 hb
    intro f
    rw [flipsFrame_sets]
    split
    · exact s.store.sets[f].limitsKept_flip
    · exact FieldSet.LimitsKept.refl _

theorem limitsKept_beforeRender : LimitsKept s s.beforeRender := by
  rw [beforeRender_eq]
  exact ((((frame_timed s).limitsKept_unlimited (by simp)).trans ((frame_fadeFrame _).limitsKept_unlimited (by simp))).trans
    (limitsKept_flipsFrame _)).trans ((frame_paletteFrame _).limitsKept_unlimited (by simp))

/-- The swap changes roles alone (R110). -/
theorem limitsKept_swapFrame : LimitsKept s s.swapFrame :=
  (frame_swapFrame s).limitsKept fun b hb => by
    obtain rfl | hpages := List.mem_cons.1 hb
    · refine Render.LimitsKept.of_pixels fun w => ?_
      rw [swapFrame_render]
      exact (Render.swap_buffer w).2
    · obtain rfl := List.mem_singleton.1 hpages
      trivial

theorem limitsKept_lateFrame (swapped : Bool) : LimitsKept s (s.lateFrame swapped) :=
  limitsKept_setRender .of_fields

theorem limitsKept_startJob : LimitsKept s s.startJob :=
  (frame_startJob s).limitsKept fun b hb => by
    obtain rfl := List.mem_singleton.1 hb
    exact Render.LimitsKept.of_pixels fun w => (startJob_buffer s w).2

theorem limitsKept_framed : LimitsKept s s.framed := by
  rw [framed_eq]
  exact (((((limitsKept_beforeRender s).trans (limitsKept_swapFrame _)).trans (limitsKept_lateFrame _ _)).trans
    (limitsKept_startJob _)).trans ((frame_keyFrame _).limitsKept_unlimited (by simp))).trans
      ((frame_setAhead _ _).limitsKept_unlimited (by simp))

theorem limitsKept_enterFrame : LimitsKept s s.enterFrame := (frame_enterFrame s).limitsKept_unlimited (by simp)

theorem limitsKept_handleTimeline (n : Fin 4) : LimitsKept s (s.handleTimeline n) := by
  unfold State.handleTimeline
  exact (((frame_setTimeline s _ _).limitsKept_unlimited (by simp)).trans
    ((frame_markAhead _ _).limitsKept_unlimited (by simp))).trans (limitsKept_notifyAll _ _ _)

theorem limitsKept_timelineAhead (n : Fin 4) : LimitsKept s (s.timelineAhead n) := by
  unfold State.timelineAhead
  split
  · exact LimitsKept.refl s
  · exact limitsKept_handleTimeline s n

theorem limitsKept_timelinesAhead (ts : List (Fin 4)) : LimitsKept s (ts.foldl State.timelineAhead s) := by
  induction ts generalizing s with
  | nil => exact LimitsKept.refl s
  | cons t rest ih => exact (limitsKept_timelineAhead s t).trans (ih _)

theorem limitsKept_tick : LimitsKept s s.tick := by
  have hdrawn : LimitsKept s s.drawOne := limitsKept_drawItems s _
  unfold State.tick State.passPeriod
  split
  · exact hdrawn.trans ((frame_advanceTo _ _).limitsKept_unlimited (by simp))
  · exact hdrawn

end Frames

end Sys2Proof.Machine
end

section
/-! Every owner's action, every event and so every step keeps the limits of the queues and lists and the canonical form of the
memories (O3). -/

namespace Sys2Proof.Machine

/-! ### The owners of blocks without limits -/

section Unlimited

variable (p : Packet) (s : State)

/-- A change of blocks without limits, then an answer. -/
theorem Frame.limitsKept_answered {bs : List Block} {s t : State} (hf : Frame bs s t)
    (h : ∀ b ∈ bs, b ∈ unlimitedBlocks) (l : Link) (st : Status) (r : List Byte) : LimitsKept s (t.finish l st r) :=
  (hf.limitsKept_unlimited h).answered l st r

theorem limitsKept_ownNudge : LimitsKept s (ownNudge p s) := by
  unfold ownNudge
  split
  · exact limitsKept_finish s _ _ _
  · exact (frame_setTiming s _).limitsKept_answered (by simp) _ _ _

theorem limitsKept_ownOffset : LimitsKept s (ownOffset p s) :=
  (frame_setTiming s _).limitsKept_answered (by simp) _ _ _

theorem limitsKept_ownPanic : LimitsKept s (ownPanic p s) := (frame_setTiming s _).limitsKept_unlimited (by simp)

/-- A change of the output stage with its notice. -/
theorem limitsKept_setOutput_notify (v : OutputStage) (before : OutputState) :
    LimitsKept s ((s.setOutput v).notifyOutput before) :=
  ((frame_setOutput s v).limitsKept_unlimited (by simp)).trans (limitsKept_notifyOutput _ _)

theorem limitsKept_ownTake : LimitsKept s (ownTake p s) := by
  unfold ownTake
  split
  · exact limitsKept_finish s _ _ _
  · exact (limitsKept_setOutput_notify s _ _).answered _ _ _

theorem limitsKept_ownClear : LimitsKept s (ownClear p s) := (limitsKept_setOutput_notify s _ _).answered _ _ _

theorem limitsKept_ownPaletteWrite : LimitsKept s (ownPaletteWrite p s) := by
  unfold ownPaletteWrite
  dsimp only
  split
  · exact limitsKept_finish s _ _ _
  · exact (frame_setOutput s _).limitsKept_answered (by simp) _ _ _

theorem limitsKept_answerTimeline (n : Fin 4) (v : Timeline) (adjusted : Bool) :
    LimitsKept s (s.answerTimeline p.link n v adjusted) :=
  (frame_setTimeline s n v).limitsKept_answered (by simp) _ _ _

theorem limitsKept_ownTimelineSet : LimitsKept s (ownTimelineSet p s) := by
  unfold ownTimelineSet
  split
  · exact limitsKept_finish s _ _ _
  · dsimp only
    split
    · exact limitsKept_finish s _ _ _
    · split
      · exact limitsKept_finish s _ _ _
      · exact limitsKept_answerTimeline p s _ _ _

theorem limitsKept_ownTimelineSteps : LimitsKept s (ownTimelineSteps p s) := by
  unfold ownTimelineSteps
  split
  · exact limitsKept_finish s _ _ _
  · exact limitsKept_answerTimeline p s _ _ _

theorem limitsKept_ownTimelineRun : LimitsKept s (ownTimelineRun p s) := by
  unfold ownTimelineRun
  split
  · exact limitsKept_finish s _ _ _
  · dsimp only
    split
    · exact limitsKept_answerTimeline p s _ _ _
    · split
      · exact limitsKept_finish s _ _ _
      · exact limitsKept_answerTimeline p s _ _ _

theorem limitsKept_ownTimelineStop : LimitsKept s (ownTimelineStop p s) := by
  unfold ownTimelineStop
  split
  · exact limitsKept_finish s _ _ _
  · exact limitsKept_answerTimeline p s _ _ _

theorem limitsKept_ownTimelineJump : LimitsKept s (ownTimelineJump p s) := by
  unfold ownTimelineJump
  split
  · exact limitsKept_finish s _ _ _
  · dsimp only
    split
    · exact limitsKept_finish s _ _ _
    · exact limitsKept_answerTimeline p s _ _ _

theorem limitsKept_ownTimelineClear : LimitsKept s (ownTimelineClear p s) := by
  unfold ownTimelineClear
  split
  · exact limitsKept_finish s _ _ _
  · dsimp only
    split
    · exact limitsKept_finish s _ _ _
    · exact limitsKept_answerTimeline p s _ _ _

theorem limitsKept_ownBlinkSet : LimitsKept s (ownBlinkSet p s) := by
  unfold ownBlinkSet
  split
  · exact limitsKept_finish s _ _ _
  · exact (frame_setBlink s _ _).limitsKept_answered (by simp) _ _ _

theorem limitsKept_ownFaultRead : LimitsKept s (ownFaultRead p s) :=
  (frame_setFault s _).limitsKept_answered (by simp) _ _ _

theorem limitsKept_ownMemoPost : LimitsKept s (ownMemoPost p s) := by
  unfold ownMemoPost
  dsimp only
  split
  · exact limitsKept_finish s _ _ _
  · exact (((frame_setMemoSlot s _ _).limitsKept_unlimited (by simp)).trans (limitsKept_notify _ _ _)).answered _ _ _

theorem limitsKept_ownMemoTake : LimitsKept s (ownMemoTake p s) := by
  unfold ownMemoTake
  split
  · exact limitsKept_finish s _ _ _
  · exact (frame_setMemoSlot s _ _).limitsKept_answered (by simp) _ _ _

theorem limitsKept_ownMemoWithdraw : LimitsKept s (ownMemoWithdraw p s) := by
  unfold ownMemoWithdraw
  split
  · exact limitsKept_finish s _ _ _
  · exact (frame_setMemoSlot s _ _).limitsKept_answered (by simp) _ _ _

end Unlimited

/-! ### The owners of the pages, the data store and the coastline store -/

section Limited

variable (p : Packet) (s : State)

/-- A change of the page table with one of the render controller outside its pixels. -/
theorem limitsKept_setPages_setRender (t : PageTable) {r : Render} (h : s.render.LimitsKept r) :
    LimitsKept s ((s.setPages t).setRender r) :=
  ((frame_setPages s t).limitsKept_unlimited (by simp)).trans (limitsKept_setRender h)

/-- Content that goes takes tags away, and no pixels (R41, R43). -/
theorem Render.limitsKept_contentGone (r : Render) (n : Fin 16) : r.LimitsKept (r.contentGone n) := by
  have huntag (b : FrameBuffer) : (b.untag n).pixels = b.pixels := by
    unfold FrameBuffer.untag
    split <;> rfl
  refine .of_pixels fun w => ?_
  cases w with
  | a => exact huntag r.bufferA
  | b => exact huntag r.bufferB

theorem limitsKept_ownPageDefine : LimitsKept s (ownPageDefine p s) := by
  unfold ownPageDefine
  dsimp only
  split
  · exact limitsKept_finish s _ _ _
  · split
    · exact limitsKept_finish s _ _ _
    · split
      · exact (limitsKept_setPages_setRender s _ (s.render.limitsKept_contentGone _)).answered _ _ _
      · exact limitsKept_finish s _ _ _

theorem limitsKept_ownPageDelete : LimitsKept s (ownPageDelete p s) := by
  unfold ownPageDelete
  dsimp only
  split
  · exact limitsKept_finish s _ _ _
  · split
    · exact limitsKept_finish s _ _ _
    · exact (limitsKept_setPages_setRender s _ (s.render.limitsKept_contentGone _)).answered _ _ _

/-- A change of the LOADED page and of the newly loaded mark (R46, R48, R114). -/
theorem limitsKept_setPages_dropKey (t : PageTable) (newly : Option (Fin 16)) :
    LimitsKept s ((s.setPages t).setRender { s.render with newlyLoaded := newly }).dropKey :=
  (limitsKept_setPages_setRender s t .of_fields).trans ((frame_dropKey _).limitsKept_unlimited (by simp))

theorem limitsKept_ownLoad : LimitsKept s (ownLoad p s) := by
  unfold ownLoad
  dsimp only
  split_ifs
  · exact limitsKept_finish s _ _ _
  · exact limitsKept_finish s _ _ _
  · exact limitsKept_finish s _ _ _
  · exact (limitsKept_setPages_dropKey s _ _).answered _ _ _

theorem limitsKept_ownUnload : LimitsKept s (ownUnload p s) := by
  unfold ownUnload
  split_ifs
  · exact limitsKept_finish s _ _ _
  · exact limitsKept_finish s _ _ _
  · exact (limitsKept_setPages_dropKey s _ _).answered _ _ _

/-- A new definition keeps the values in DRAM (R54). -/
theorem FieldSet.limitsKept_define (v : FieldSet) (g : Geometry) : v.LimitsKept (v.define g) := fun second h => by
  cases second <;> exact h

/-- A bank whose values stay canonical takes its place in the field set. -/
theorem FieldSet.limitsKept_setBank (v : FieldSet) (second : Bool) {b : Bank}
    (h : Mem.wf rowDefault (v.bank second).values = true → Mem.wf rowDefault b.values = true) :
    v.LimitsKept (v.setBank second b) := fun third hw => by
  by_cases he : third = second
  · subst he
    rw [FieldSet.setBank_bank]
    exact h hw
  · obtain rfl : third = !second := Bool.eq_not_of_ne he
    rwa [FieldSet.setBank_bank_not]

theorem limitsKept_ownGridDefine : LimitsKept s (ownGridDefine p s) := by
  obtain ⟨st, r, h⟩ | ⟨f, g, -, h⟩ := ownGridDefine_cases p s
  · rw [h]
    exact limitsKept_finish s _ _ _
  · rw [h]
    exact (limitsKept_setFieldSet (FieldSet.limitsKept_define _ g)).answered _ _ _

/-- A row is one write to the bank's sparse memory (R56). -/
theorem limitsKept_ownGridRows : LimitsKept s (ownGridRows p s) := by
  obtain ⟨st, r, h⟩ | ⟨f, g, second, st, r, -, -, h⟩ := ownGridRows_cases p s
  · rw [h]
    exact limitsKept_finish s _ _ _
  · rw [h]
    exact (limitsKept_setFieldSet (FieldSet.limitsKept_setBank _ second fun hw => Mem.wf_write hw _ _)).answered _ _ _

theorem limitsKept_ownGridPublish : LimitsKept s (ownGridPublish p s) := by
  obtain ⟨st, r, h⟩ | ⟨f, g, second, -, -, -, h⟩ := ownGridPublish_cases p s
  · rw [h]
    exact limitsKept_finish s _ _ _
  · rw [h]
    exact (limitsKept_setFieldSet (FieldSet.limitsKept_setBank _ second (by exact id))).answered _ _ _

theorem limitsKept_ownGridStatus : LimitsKept s (ownGridStatus p s) := by
  unfold ownGridStatus
  split
  · exact limitsKept_finish s _ _ _
  · exact limitsKept_finish s _ _ _

theorem limitsKept_ownListWrite : LimitsKept s (ownListWrite p s) := by
  unfold ownListWrite
  dsimp only
  split
  · split
    · exact limitsKept_finish s _ _ _
    · exact limitsKept_deferWrite s _
  · exact limitsKept_finish s _ _ _

theorem limitsKept_ownSymbolWrite : LimitsKept s (ownSymbolWrite p s) := by
  unfold ownSymbolWrite
  split
  · exact limitsKept_finish s _ _ _
  · exact limitsKept_deferWrite s _

/-- A flash command that is accepted becomes the operation in flight alone (R143). -/
theorem limitsKept_ownFlashRead : LimitsKept s (ownFlashRead p s) := by
  unfold ownFlashRead
  dsimp only
  split
  · exact limitsKept_finish s _ _ _
  · exact limitsKept_setChart .of_fields

theorem limitsKept_ownFlashProgram : LimitsKept s (ownFlashProgram p s) := by
  unfold ownFlashProgram
  dsimp only
  split
  · exact limitsKept_finish s _ _ _
  · exact limitsKept_setChart .of_fields

theorem limitsKept_ownFlashErase : LimitsKept s (ownFlashErase p s) := by
  unfold ownFlashErase
  dsimp only
  split
  · exact limitsKept_finish s _ _ _
  · exact limitsKept_setChart .of_fields

/-- CHART RESCAN empties both lists (R147). -/
theorem limitsKept_ownChartRescan : LimitsKept s (ownChartRescan p s) := by
  unfold ownChartRescan
  split
  · exact limitsKept_finish s _ _ _
  · exact (limitsKept_setChart (by exact ⟨fun _ => Nat.zero_le _, fun _ => Nat.zero_le _, id⟩)).trans
      (limitsKept_setStoreState _ _)

theorem limitsKept_ownCacheRestore : LimitsKept s (ownCacheRestore p s) := by
  unfold ownCacheRestore
  split
  · exact limitsKept_restoreCache s p.link
  · exact LimitsKept.refl s

end Limited

/-! ### The rows that act on a port alone (R158-R161, R167, R170) -/

/-- A header that has come leaves the queue (R160, R161). -/
theorem Port.bounded_useHeader (w : HeaderWord) {p : Port} (h : p.bounded) : (Port.useHeader w p).bounded := by
  unfold Port.useHeader
  dsimp only
  split_ifs <;> exact h

/-! ### Every command -/

/-- The command keeps the limits of the queues and lists and the canonical form of the memories. -/
def KeepsLimits (c : Instr) : Prop := ∀ s, ∃ t, exec c s = .next t ∧ LimitsKept s t

section Events

theorem keepsLimits_powerOnReset (high : Bool) : KeepsLimits (.powerOnReset high) := by
  refine fun s => ⟨_, rfl, fun b => ?_⟩
  cases b with
  | port l => cases l <;> exact fun _ => Nat.zero_le _
  | chart => exact ⟨fun _ => Nat.zero_le _, fun _ => Nat.zero_le _, fun h => flashWrite_wf h _ _⟩
  | render => exact Render.LimitsKept.of_pixels fun w => by cases w <;> rfl
  | store =>
    intro f
    have hset : (s.store.sets.map FieldSet.afterReset)[f] = s.store.sets[f].afterReset := Vector.getElem_map _ f.isLt
    change s.store.sets[f].LimitsKept (s.store.sets.map FieldSet.afterReset)[f]
    rw [hset]
    exact fun second h => by cases second <;> exact h
  | _ => trivial

theorem keepsLimits_frameStart (order : List FramePart) : KeepsLimits (.frameStart order) := fun s =>
  ⟨_, rfl, ((limitsKept_enterFrame s).trans (limitsKept_framed _)).trans (limitsKept_queueAll _ _)⟩

/-- A change of the generator, with the notices of a change of its reference state (R13). -/
theorem limitsKept_setTiming_notify (s : State) (v : Timing) (before : RefState) :
    LimitsKept s ((s.setTiming v).notifyReference before) :=
  ((frame_setTiming s v).limitsKept_unlimited (by simp)).trans (limitsKept_notifyReference _ _)

theorem limitsKept_advanceTo (s : State) (t : Nat) : LimitsKept s (s.advanceTo t) :=
  (frame_advanceTo s t).limitsKept_unlimited (by simp)

theorem keepsLimits_referencePulse (time : Nat) : KeepsLimits (.referencePulse time) := fun s =>
  ⟨_, rfl, (limitsKept_advanceTo s time).trans (limitsKept_setTiming_notify _ _ _)⟩

theorem keepsLimits_decisionInstant : KeepsLimits .decisionInstant := by
  refine fun s => ⟨_, rfl, ?_⟩
  split
  · exact LimitsKept.refl s
  · exact (limitsKept_advanceTo s _).trans (limitsKept_setTiming_notify _ _ _)

theorem limitsKept_markAhead (s : State) (h : FramePart) : LimitsKept s (s.markAhead h) :=
  (frame_markAhead s h).limitsKept_unlimited (by simp)

theorem keepsLimits_holdoverExpiry : KeepsLimits .holdoverExpiry := by
  refine fun s => ⟨_, rfl, ?_⟩
  split
  · exact (((limitsKept_enterFrame s).trans ((frame_setTiming _ _).limitsKept_unlimited (by simp))).trans
      (limitsKept_markAhead _ _)).trans (limitsKept_notifyReference _ _)
  · exact LimitsKept.refl s

theorem keepsLimits_pendingCut : KeepsLimits .pendingCut := by
  refine fun s => ⟨_, rfl, ?_⟩
  split
  · exact LimitsKept.refl s
  · split
    · exact LimitsKept.refl s
    · exact (((limitsKept_enterFrame s).trans ((frame_outputFrame _).limitsKept_unlimited (by simp))).trans
        (limitsKept_markAhead _ _)).trans (limitsKept_notifyOutput _ _)

theorem keepsLimits_panicActs : KeepsLimits .panicActs := by
  refine fun s => ⟨_, rfl, ?_⟩
  split
  · exact ((((((frame_reachPanic s).limitsKept_unlimited (by simp)).trans
      ((frame_setTiming _ _).limitsKept_unlimited (by simp))).trans
        ((frame_setOutput _ _).limitsKept_unlimited (by simp))).trans
          ((frame_enterDark _).limitsKept_unlimited (by simp))).trans (limitsKept_notifyOutput _ _)).answered _ _ _
  · exact LimitsKept.refl s

theorem keepsLimits_flip (f : Fin 4) : KeepsLimits (.flip f) := by
  refine fun s => ⟨_, rfl, ?_⟩
  split
  · exact ((((limitsKept_enterFrame s).trans (limitsKept_timelinesAhead _ _)).trans
      (limitsKept_setFieldSet (FieldSet.limitsKept_flip _))).trans (limitsKept_markAhead _ _)).trans
        (limitsKept_notifyAll _ _ _)
  · exact LimitsKept.refl s

theorem keepsLimits_timelineCommit (n : Fin 4) : KeepsLimits (.timelineCommit n) := by
  refine fun s => ⟨_, rfl, ?_⟩
  split
  · exact (limitsKept_enterFrame s).trans (limitsKept_handleTimeline _ n)
  · exact LimitsKept.refl s

theorem keepsLimits_memoExpiry (d : MemoDir) : KeepsLimits (.memoExpiry d) := by
  refine fun s => ⟨_, rfl, ?_⟩
  split
  · exact (((limitsKept_enterFrame s).trans ((frame_setMemoSlot _ _ _).limitsKept_unlimited (by simp))).trans
      (limitsKept_markAhead _ _)).trans (limitsKept_notify _ _ _)
  · exact LimitsKept.refl s

/-- The fetch ends with its outcome, the port is free, and the job draws on or is discarded (R126, R139, R142). -/
theorem keepsLimits_tileFetchComplete (noise : List Byte) : KeepsLimits (.tileFetchComplete noise) := by
  refine fun s => ⟨_, rfl, ?_⟩
  dsimp only
  split
  · rename_i j it r _ _
    have hfetched : LimitsKept s ((s.runJob.endFetch r noise).1.setChart
        { (s.runJob.endFetch r noise).1.chart with port := none }) :=
      ((limitsKept_runJob s).trans (limitsKept_endFetch _ r noise)).trans (limitsKept_setChart .of_fields)
    split
    · exact (hfetched.trans (limitsKept_settle _ j it _)).trans (limitsKept_afterFetch _)
    · exact (hfetched.trans (limitsKept_discardJob _ j _)).trans (limitsKept_afterFetch _)
  · exact LimitsKept.refl s

theorem keepsLimits_jobComplete : KeepsLimits .jobComplete := by
  refine fun s => ⟨_, rfl, ?_⟩
  dsimp only
  split
  · exact (limitsKept_runJob s).trans (limitsKept_completeJob _ _)
  · exact LimitsKept.refl s

theorem keepsLimits_cacheHitParityError (tile : Fin 256) : KeepsLimits (.cacheHitParityError tile) := by
  refine fun s => ⟨_, rfl, ?_⟩
  dsimp only
  split
  · split
    · exact (limitsKept_setChart .of_fields).trans (limitsKept_runJob _)
    · exact limitsKept_setChart .of_fields
  · exact LimitsKept.refl s

theorem keepsLimits_deferredWriteApply : KeepsLimits .deferredWriteApply := by
  refine fun s => ⟨_, rfl, ?_⟩
  split
  · exact limitsKept_applyDeferred s
  · exact LimitsKept.refl s

theorem keepsLimits_cacheRestoreApply (l : Link) : KeepsLimits (.cacheRestoreApply l) := by
  refine fun s => ⟨_, rfl, ?_⟩
  split
  · exact limitsKept_applyRestore s l
  · exact LimitsKept.refl s

theorem keepsLimits_flashReadComplete (noise : List Byte) : KeepsLimits (.flashReadComplete noise) := by
  refine fun s => ⟨_, rfl, ?_⟩
  split
  · exact (limitsKept_setChart .of_fields).answered _ _ _
  · exact LimitsKept.refl s

theorem keepsLimits_flashProgramComplete (fails : List Byte) : KeepsLimits (.flashProgramComplete fails) := by
  refine fun s => ⟨_, rfl, ?_⟩
  dsimp only
  split
  · split
    · exact LimitsKept.refl s
    · split
      · exact (limitsKept_flashChanged s fun h => flashWrite_wf h _ _).answered _ _ _
      · exact (limitsKept_flashChanged s fun h => flashWrite_wf h _ _).answered _ _ _
  · exact LimitsKept.refl s

theorem keepsLimits_flashEraseComplete : KeepsLimits .flashEraseComplete := by
  refine fun s => ⟨_, rfl, ?_⟩
  split
  · split
    · exact LimitsKept.refl s
    · exact (limitsKept_flashChanged s fun h => Mem.wf_clearRange h _ _).answered _ _ _
  · exact LimitsKept.refl s

theorem keepsLimits_scanComplete (noise : List Byte) : KeepsLimits (.scanComplete noise) := by
  refine fun s => ⟨_, rfl, ?_⟩
  dsimp only
  split
  · split
    · exact LimitsKept.refl s
    · split
      · exact (limitsKept_scanEnds s _ _).answered _ _ _
      · exact limitsKept_scanEnds s _ _
  · exact LimitsKept.refl s

theorem keepsLimits_unknownPacket (kind : BitVec 7) (p : Packet) : KeepsLimits (.unknownPacket kind p) := by
  refine fun s => ⟨_, rfl, ?_⟩
  split
  · exact LimitsKept.refl s
  · dsimp only
    split
    · exact (limitsKept_arrive s p).trans (limitsKept_refuse _ kind p _)
    · exact (limitsKept_arrive s p).trans (limitsKept_refuse _ kind p _)

/-- A row that acts on one port alone keeps the limits where it keeps the queue's. -/
theorem keepsLimits_port {c : Instr} {l : Link} {g : Port → Port} (hc : ∀ s, exec c s = .next (s.mapPort l g))
    (hg : ∀ p : Port, p.bounded → (g p).bounded) : KeepsLimits c := fun s => ⟨_, hc s, limitsKept_mapPort s l hg⟩

theorem keepsLimits_transmitEnd (l : Link) : KeepsLimits (.transmitEnd l) :=
  keepsLimits_port (fun _ => rfl) fun p h => by
    split
    · exact h
    · exact Port.bounded_pump h

theorem keepsLimits_lineBreak (l : Link) : KeepsLimits (.lineBreak l) :=
  keepsLimits_port (fun _ => rfl) fun p h => by
    split
    · exact h
    · exact Nat.zero_le _

theorem keepsLimits_lineBreakEnd (l : Link) : KeepsLimits (.lineBreakEnd l) :=
  keepsLimits_port (fun _ => rfl) fun p h => by
    split
    · exact Port.bounded_pump h
    · exact h

theorem keepsLimits_framingError (l : Link) : KeepsLimits (.framingError l) :=
  keepsLimits_port (fun _ => rfl) fun p h => by split <;> exact h

theorem keepsLimits_receiveTimeout (l : Link) : KeepsLimits (.receiveTimeout l) :=
  keepsLimits_port (fun _ => rfl) fun p h => by split <;> exact h

theorem keepsLimits_startByte (l : Link) : KeepsLimits (.startByte l) :=
  keepsLimits_port (fun _ => rfl) fun p h => by
    split
    · exact h
    · split <;> exact h

theorem keepsLimits_headerReceived (l : Link) (header : HeaderWord) : KeepsLimits (.headerReceived l header) :=
  keepsLimits_port (fun _ => rfl) fun p h => by
    split
    · exact h
    · split
      · exact h
      · exact h
      · split
        · exact Port.bounded_useHeader _ h
        · exact Port.bounded_useHeader _ h
        · exact h

/-- A packet command whose owner keeps the limits. -/
theorem keepsLimits_packet {c : Instr} {k : Kind} {p : Packet} {own : Packet → State → State}
    (hc : ∀ s, exec c s = .next (serve k p own s)) (h : ∀ t, LimitsKept t (own p t)) : KeepsLimits c :=
  fun s => ⟨_, hc s, limitsKept_serve s p h⟩

/-- A command of blocks without limits. -/
theorem keepsLimits_unlimited {c : Instr} (h : ∀ b ∈ touched c, b ∈ unlimitedBlocks) : KeepsLimits c := fun s => by
  obtain ⟨t, ht, hf⟩ := keepsOthers c s
  exact ⟨t, ht, hf.limitsKept_unlimited h⟩

end Events

theorem keepsLimits (c : Instr) : KeepsLimits c := by
  cases c with
  | powerOnReset high => exact keepsLimits_powerOnReset high
  | frameStart order => exact keepsLimits_frameStart order
  | referencePulse time => exact keepsLimits_referencePulse time
  | decisionInstant => exact keepsLimits_decisionInstant
  | holdoverExpiry => exact keepsLimits_holdoverExpiry
  | nudgeApply => exact keepsLimits_unlimited (by simp [touched])
  | offsetTakesEffect => exact keepsLimits_unlimited (by simp [touched])
  | pendingCut => exact keepsLimits_pendingCut
  | panicActs => exact keepsLimits_panicActs
  | flip f => exact keepsLimits_flip f
  | timelineCommit n => exact keepsLimits_timelineCommit n
  | blinkCycleEnd n => exact keepsLimits_unlimited (by simp [touched])
  | memoExpiry d => exact keepsLimits_memoExpiry d
  | tileFetchComplete noise => exact keepsLimits_tileFetchComplete noise
  | jobComplete => exact keepsLimits_jobComplete
  | cacheHitParityError tile => exact keepsLimits_cacheHitParityError tile
  | deferredWriteApply => exact keepsLimits_deferredWriteApply
  | cacheRestoreApply l => exact keepsLimits_cacheRestoreApply l
  | flashReadComplete noise => exact keepsLimits_flashReadComplete noise
  | flashProgramComplete fails => exact keepsLimits_flashProgramComplete fails
  | flashEraseComplete => exact keepsLimits_flashEraseComplete
  | scanComplete noise => exact keepsLimits_scanComplete noise
  | transmitEnd l => exact keepsLimits_transmitEnd l
  | lineBreak l => exact keepsLimits_lineBreak l
  | lineBreakEnd l => exact keepsLimits_lineBreakEnd l
  | framingError l => exact keepsLimits_framingError l
  | receiveTimeout l => exact keepsLimits_receiveTimeout l
  | headerReceived l header => exact keepsLimits_headerReceived l header
  | startByte l => exact keepsLimits_startByte l
  | unknownPacket kind p => exact keepsLimits_unknownPacket kind p
  | status p => exact keepsLimits_packet (fun _ => rfl) fun t => limitsKept_finish t _ _ _
  | echo p => exact keepsLimits_packet (fun _ => rfl) fun t => limitsKept_finish t _ _ _
  | pageRead p => exact keepsLimits_packet (fun _ => rfl) fun t => limitsKept_finish t _ _ _
  | gridStatus p => exact keepsLimits_packet (fun _ => rfl) (limitsKept_ownGridStatus p)
  | faultRead p => exact keepsLimits_packet (fun _ => rfl) (limitsKept_ownFaultRead p)
  | cacheRestore p => exact keepsLimits_packet (fun _ => rfl) (limitsKept_ownCacheRestore p)
  | memoPost p => exact keepsLimits_packet (fun _ => rfl) (limitsKept_ownMemoPost p)
  | memoTake p => exact keepsLimits_packet (fun _ => rfl) (limitsKept_ownMemoTake p)
  | memoWithdraw p => exact keepsLimits_packet (fun _ => rfl) (limitsKept_ownMemoWithdraw p)
  | gridDefine p => exact keepsLimits_packet (fun _ => rfl) (limitsKept_ownGridDefine p)
  | gridRows p => exact keepsLimits_packet (fun _ => rfl) (limitsKept_ownGridRows p)
  | gridPublish p => exact keepsLimits_packet (fun _ => rfl) (limitsKept_ownGridPublish p)
  | listWrite p => exact keepsLimits_packet (fun _ => rfl) (limitsKept_ownListWrite p)
  | symbolWrite p => exact keepsLimits_packet (fun _ => rfl) (limitsKept_ownSymbolWrite p)
  | flashRead p => exact keepsLimits_packet (fun _ => rfl) (limitsKept_ownFlashRead p)
  | flashProgram p => exact keepsLimits_packet (fun _ => rfl) (limitsKept_ownFlashProgram p)
  | flashErase p => exact keepsLimits_packet (fun _ => rfl) (limitsKept_ownFlashErase p)
  | chartRescan p => exact keepsLimits_packet (fun _ => rfl) (limitsKept_ownChartRescan p)
  | pageDefine p => exact keepsLimits_packet (fun _ => rfl) (limitsKept_ownPageDefine p)
  | pageDelete p => exact keepsLimits_packet (fun _ => rfl) (limitsKept_ownPageDelete p)
  | load p => exact keepsLimits_packet (fun _ => rfl) (limitsKept_ownLoad p)
  | unload p => exact keepsLimits_packet (fun _ => rfl) (limitsKept_ownUnload p)
  | take p => exact keepsLimits_packet (fun _ => rfl) (limitsKept_ownTake p)
  | clear p => exact keepsLimits_packet (fun _ => rfl) (limitsKept_ownClear p)
  | panic p => exact keepsLimits_packet (fun _ => rfl) (limitsKept_ownPanic p)
  | paletteWrite p => exact keepsLimits_packet (fun _ => rfl) (limitsKept_ownPaletteWrite p)
  | timelineSet p => exact keepsLimits_packet (fun _ => rfl) (limitsKept_ownTimelineSet p)
  | timelineSteps p => exact keepsLimits_packet (fun _ => rfl) (limitsKept_ownTimelineSteps p)
  | timelineRun p => exact keepsLimits_packet (fun _ => rfl) (limitsKept_ownTimelineRun p)
  | timelineStop p => exact keepsLimits_packet (fun _ => rfl) (limitsKept_ownTimelineStop p)
  | timelineJump p => exact keepsLimits_packet (fun _ => rfl) (limitsKept_ownTimelineJump p)
  | timelineClear p => exact keepsLimits_packet (fun _ => rfl) (limitsKept_ownTimelineClear p)
  | blinkSet p => exact keepsLimits_packet (fun _ => rfl) (limitsKept_ownBlinkSet p)
  | offset p => exact keepsLimits_packet (fun _ => rfl) (limitsKept_ownOffset p)
  | nudge p => exact keepsLimits_packet (fun _ => rfl) (limitsKept_ownNudge p)

/-! ### Every step -/

/-- A step carries out one command on the queue's rest, or is a tick (log 1). -/
theorem limitsKept_step {s t : State} (h : step s = .next t) : LimitsKept s t := by
  cases hpending : s.pending with
  | nil =>
    simp only [step, hpending, Host.Outcome.next.injEq] at h
    exact h ▸ limitsKept_tick s
  | cons c rest =>
    simp only [step, hpending] at h
    obtain ⟨u, hu, hkept⟩ := keepsLimits c (s.withPending rest)
    obtain rfl : u = t := by simpa only [hu, Host.Outcome.next.injEq] using h
    exact ((frame_withPending s rest).limitsKept_unlimited (by simp)).trans hkept

/-- Settles O3: every step keeps, block by block, what the limits and the canonical forms ask. -/
theorem limitsAndMemoriesKept : Obligations.LimitsAndMemoriesKept := fun _ _ h =>
  ⟨(limitsKept_step h).bounded, (limitsKept_step h).canonical⟩

end Sys2Proof.Machine
end

section
/-! FLASH READ, FLASH PROGRAM, FLASH ERASE and CHART RESCAN (O51). -/

namespace Sys2Proof.Machine

/-! ### A change of store state (R135) -/

section StoreStates

variable (s : State) (st : StoreState)

theorem setStoreState_chart : (s.setStoreState st).chart = { s.chart with state := st } := by
  by_cases h : s.chart.state = st
  · subst h
    exact congrArg State.chart (if_pos rfl)
  · rw [setStoreState_changes h]
    rfl

/-- A store that comes to another state notifies the forecast link (R135). -/
theorem setStoreState_forecast :
    (s.setStoreState st).forecast =
      if s.chart.state = st then s.forecast
      else Port.notify ((Notice.chartState st).packet s.timing.frame) s.forecast := by
  split
  case isTrue h => exact congrArg State.forecast (if_pos h)
  case isFalse h =>
    rw [setStoreState_changes h]
    rfl

theorem setStoreState_slot (l : Link) : ((s.setStoreState st).port l).slot = (s.port l).slot := by
  cases l with
  | studio => rw [(frame_setStoreState s st).port_eq .studio (by simp)]
  | forecast =>
    change (s.setStoreState st).forecast.slot = s.forecast.slot
    rw [setStoreState_forecast]
    split
    · rfl
    · exact Port.notify_slot _ _

theorem Chart.forget_cache (c : Chart) (i : Fin 64) : c.forget.cache[i] = none := c.flush_cache i

end StoreStates

/-! ### The checks that the four commands share, in their order (R143) -/

section Refusals

variable {s : State} {changes inRange : Bool}

theorem flashRefusal_busy (h : s.chart.op ≠ none) : s.flashRefusal changes inRange = some .chartBusy :=
  if_pos (Option.isSome_iff_ne_none.2 h)

theorem flashRefusal_idle (h : s.chart.op = none) :
    s.flashRefusal changes inRange =
      if (changes && s.pages.loaded.isSome) = true then some .chartInUse
      else if inRange = true then none else some .range := by
  unfold State.flashRefusal
  rw [h]
  rfl

/-- The three commands that change the flash are refused while a page is LOADED (R143). -/
theorem flashRefusal_inUse (h : s.chart.op = none) (hl : s.pages.loaded ≠ none) :
    s.flashRefusal true inRange = some .chartInUse := by
  rw [flashRefusal_idle h, Bool.true_and, if_pos (Option.isSome_iff_ne_none.2 hl)]

/-- What is left is the command's own range check (R143). -/
theorem flashRefusal_own (h : s.chart.op = none) (hl : changes = true → s.pages.loaded = none) :
    s.flashRefusal changes inRange = if inRange = true then none else some .range := by
  have hfree : (changes && s.pages.loaded.isSome) = false := by
    cases changes with
    | false => rfl
    | true => rw [hl rfl]; rfl
  rw [flashRefusal_idle h, hfree, if_neg Bool.false_ne_true]

theorem flashRefusal_range (h : s.chart.op = none) (hl : changes = true → s.pages.loaded = none)
    (hr : ¬inRange = true) : s.flashRefusal changes inRange = some .range := by
  rw [flashRefusal_own h hl, if_neg hr]

theorem flashRefusal_none (h : s.chart.op = none) (hl : changes = true → s.pages.loaded = none)
    (hr : inRange = true) : s.flashRefusal changes inRange = none := by
  rw [flashRefusal_own h hl, if_pos hr]

end Refusals

/-! ### The owners' ranges and cases (R144-R147) -/

section Owners

variable (p : Packet) {s : State}

/-- The address and the length of a FLASH READ are in range (R144). -/
def readInRange : Bool :=
  decide (1 ≤ fieldNat p.payload 4 2) && decide (fieldNat p.payload 4 2 ≤ 256) &&
    decide (fieldNat p.payload 0 4 + fieldNat p.payload 4 2 ≤ flashSize)

/-- The address of a FLASH PROGRAM is a page's (R145). -/
def pageInRange : Bool := fieldNat p.payload 0 4 % 256 == 0 && decide (fieldNat p.payload 0 4 < flashSize)

/-- The sector of a FLASH ERASE is one of the flash's (R146). -/
def sectorInRange : Bool := decide (fieldNat p.payload 0 2 ≤ 255)

theorem readInRange_iff : readInRange p = true ↔
    1 ≤ fieldNat p.payload 4 2 ∧ fieldNat p.payload 4 2 ≤ 256 ∧
      fieldNat p.payload 0 4 + fieldNat p.payload 4 2 ≤ 16777216 := by
  simp only [readInRange, Bool.and_eq_true, decide_eq_true_eq, and_assoc]
  exact Iff.rfl

theorem pageInRange_iff : pageInRange p = true ↔
    fieldNat p.payload 0 4 % 256 = 0 ∧ fieldNat p.payload 0 4 < 16777216 := by
  simp only [pageInRange, Bool.and_eq_true, beq_iff_eq, decide_eq_true_eq]
  exact Iff.rfl

theorem sectorInRange_iff : sectorInRange p = true ↔ fieldNat p.payload 0 2 ≤ 255 := decide_eq_true_iff

theorem ownFlashRead_refused {st : Status} (h : s.flashRefusal false (readInRange p) = some st) :
    ownFlashRead p s = s.finish p.link st [] := by
  unfold readInRange at h
  simp only [ownFlashRead, h]

theorem ownFlashRead_accepted (h : s.flashRefusal false (readInRange p) = none) :
    ownFlashRead p s = s.setChart { s.chart with
      op := some (.read (fieldNat p.payload 0 4) (fieldNat p.payload 4 2)), port := s.chart.port.or (some .read) } := by
  unfold readInRange at h
  simp only [ownFlashRead, h]
  cases s.chart.port <;> rfl

theorem ownFlashProgram_refused {st : Status} (h : s.flashRefusal true (pageInRange p) = some st) :
    ownFlashProgram p s = s.finish p.link st [] := by
  unfold pageInRange at h
  simp only [ownFlashProgram, h]

theorem ownFlashProgram_accepted (h : s.flashRefusal true (pageInRange p) = none) :
    ownFlashProgram p s = s.setChart { s.chart with
      op := some (.program (fieldNat p.payload 0 4) (fieldBytes p.payload 4 256)) } := by
  unfold pageInRange at h
  simp only [ownFlashProgram, h]

theorem ownFlashErase_refused {st : Status} (h : s.flashRefusal true (sectorInRange p) = some st) :
    ownFlashErase p s = s.finish p.link st [] := by
  unfold sectorInRange at h
  simp only [ownFlashErase, h]

theorem ownFlashErase_accepted (h : s.flashRefusal true (sectorInRange p) = none) :
    ownFlashErase p s = s.setChart { s.chart with op := some (.erase (fieldNat p.payload 0 2)) } := by
  unfold sectorInRange at h
  simp only [ownFlashErase, h]

theorem ownChartRescan_refused {st : Status} (h : s.flashRefusal true true = some st) :
    ownChartRescan p s = s.finish p.link st [] := by
  simp only [ownChartRescan, h]

theorem ownChartRescan_accepted (h : s.flashRefusal true true = none) :
    ownChartRescan p s =
      (s.setChart { s.chart.forget with directory := none, op := some (.rescan true) }).setStoreState .scanning := by
  simp only [ownChartRescan, h]

end Owners

/-! ### Each command, taken (R143-R147) -/

section Commands

variable {p : Packet} {s : State} {st : Status}

/-- The checks read nothing that a packet's arrival changes. -/
theorem taken_flashRefusal (k : Kind) (changes inRange : Bool) :
    (s.taken k p).flashRefusal changes inRange = s.flashRefusal changes inRange := by
  unfold State.flashRefusal
  rw [State.taken_chart, State.taken_pages]

theorem flashRead_refused (ht : takes .flashRead p s = true) (h : s.flashRefusal false (readInRange p) = some st) :
    exec (.flashRead p) s = .next ((s.taken .flashRead p).finish p.link st []) := by
  rw [exec_of_takes (own := ownFlashRead) rfl ht, ownFlashRead_refused p ((taken_flashRefusal _ _ _).trans h)]

theorem flashRead_accepted (ht : takes .flashRead p s = true) (h : s.flashRefusal false (readInRange p) = none) :
    ∃ t, exec (.flashRead p) s = .next t ∧
      t.chart = { s.chart with
        op := some (.read (fieldNat p.payload 0 4) (fieldNat p.payload 4 2)), port := s.chart.port.or (some .read) } ∧
      t.port p.link = (s.taken .flashRead p).port p.link := by
  refine ⟨_, exec_of_takes (own := ownFlashRead) rfl ht, ?_⟩
  rw [ownFlashRead_accepted p ((taken_flashRefusal _ _ _).trans h), State.setChart_chart, State.taken_chart]
  exact ⟨rfl, State.setChart_port _ _ _⟩

theorem flashProgram_refused (ht : takes .flashProgram p s = true) (h : s.flashRefusal true (pageInRange p) = some st) :
    exec (.flashProgram p) s = .next ((s.taken .flashProgram p).finish p.link st []) := by
  rw [exec_of_takes (own := ownFlashProgram) rfl ht, ownFlashProgram_refused p ((taken_flashRefusal _ _ _).trans h)]

theorem flashProgram_accepted (ht : takes .flashProgram p s = true) (h : s.flashRefusal true (pageInRange p) = none) :
    ∃ t, exec (.flashProgram p) s = .next t ∧
      t.chart = { s.chart with op := some (.program (fieldNat p.payload 0 4) (fieldBytes p.payload 4 256)) } ∧
      t.port p.link = (s.taken .flashProgram p).port p.link := by
  refine ⟨_, exec_of_takes (own := ownFlashProgram) rfl ht, ?_⟩
  rw [ownFlashProgram_accepted p ((taken_flashRefusal _ _ _).trans h), State.setChart_chart, State.taken_chart]
  exact ⟨rfl, State.setChart_port _ _ _⟩

theorem flashErase_refused (ht : takes .flashErase p s = true) (h : s.flashRefusal true (sectorInRange p) = some st) :
    exec (.flashErase p) s = .next ((s.taken .flashErase p).finish p.link st []) := by
  rw [exec_of_takes (own := ownFlashErase) rfl ht, ownFlashErase_refused p ((taken_flashRefusal _ _ _).trans h)]

theorem flashErase_accepted (ht : takes .flashErase p s = true) (h : s.flashRefusal true (sectorInRange p) = none) :
    ∃ t, exec (.flashErase p) s = .next t ∧ t.chart = { s.chart with op := some (.erase (fieldNat p.payload 0 2)) } ∧
      t.port p.link = (s.taken .flashErase p).port p.link := by
  refine ⟨_, exec_of_takes (own := ownFlashErase) rfl ht, ?_⟩
  rw [ownFlashErase_accepted p ((taken_flashRefusal _ _ _).trans h), State.setChart_chart, State.taken_chart]
  exact ⟨rfl, State.setChart_port _ _ _⟩

theorem chartRescan_refused (ht : takes .chartRescan p s = true) (h : s.flashRefusal true true = some st) :
    exec (.chartRescan p) s = .next ((s.taken .chartRescan p).finish p.link st []) := by
  rw [exec_of_takes (own := ownChartRescan) rfl ht, ownChartRescan_refused p ((taken_flashRefusal _ _ _).trans h)]

/-- A CHART RESCAN that is accepted empties the directory, the cache and the lists, and holds its slot (R136, R147). -/
theorem chartRescan_accepted (ht : takes .chartRescan p s = true) (h : s.flashRefusal true true = none) :
    ∃ t, exec (.chartRescan p) s = .next t ∧
      t.chart = { s.chart.forget with directory := none, op := some (.rescan true), state := .scanning } ∧
      (t.port p.link).slot = some (cmdRecord .chartRescan p) := by
  refine ⟨_, exec_of_takes (own := ownChartRescan) rfl ht, ?_⟩
  rw [ownChartRescan_accepted p ((taken_flashRefusal _ _ _).trans h), setStoreState_chart, State.setChart_chart,
    State.taken_chart, setStoreState_slot, State.setChart_port, State.taken_port]
  exact ⟨rfl, rfl⟩

end Commands

/-- Settles O51: the refusals in their order and the command accepted, command by command. -/
theorem flashCommandsAccepted : Obligations.FlashCommandsAccepted := by
  refine ⟨fun p s ht => ?read, fun p s ht => ?program, fun p s ht => ?erase, fun p s ht => ?rescan⟩
  case read =>
    have hread : false = true → s.pages.loaded = none := fun h => nomatch h
    exact ⟨fun hb => flashRead_refused ht (flashRefusal_busy hb),
      fun hi hr => flashRead_refused ht (flashRefusal_range hi hread (mt (readInRange_iff p).1 hr)),
      fun hi h1 h256 hsize =>
        flashRead_accepted ht (flashRefusal_none hi hread ((readInRange_iff p).2 ⟨h1, h256, hsize⟩))⟩
  case program =>
    have outside (hr : fieldNat p.payload 0 4 % 256 ≠ 0 ∨ 16777216 ≤ fieldNat p.payload 0 4) :
        ¬pageInRange p = true := by
      rwa [pageInRange_iff, not_and_or, Nat.not_lt]
    exact ⟨fun hb => flashProgram_refused ht (flashRefusal_busy hb),
      fun hi hl => flashProgram_refused ht (flashRefusal_inUse hi hl),
      fun hi hl hr => flashProgram_refused ht (flashRefusal_range hi (fun _ => hl) (outside hr)),
      fun hi hl hpage hsize =>
        flashProgram_accepted ht (flashRefusal_none hi (fun _ => hl) ((pageInRange_iff p).2 ⟨hpage, hsize⟩))⟩
  case erase =>
    exact ⟨fun hb => flashErase_refused ht (flashRefusal_busy hb),
      fun hi hl => flashErase_refused ht (flashRefusal_inUse hi hl),
      fun hi hl hr => flashErase_refused ht
        (flashRefusal_range hi (fun _ => hl) (mt (sectorInRange_iff p).1 (Nat.not_le.2 hr))),
      fun hi hl hsector =>
        flashErase_accepted ht (flashRefusal_none hi (fun _ => hl) ((sectorInRange_iff p).2 hsector))⟩
  case rescan =>
    refine ⟨fun hb => chartRescan_refused ht (flashRefusal_busy hb),
      fun hi hl => chartRescan_refused ht (flashRefusal_inUse hi hl), fun hi hl => ?_⟩
    obtain ⟨t, hexec, hchart, hslot⟩ := chartRescan_accepted ht (flashRefusal_none hi (fun _ => hl) rfl)
    refine ⟨t, hexec, ?_⟩
    rw [hchart]
    exact ⟨rfl, rfl, rfl, s.chart.forget_cache, rfl, rfl, rfl, hslot⟩

end Sys2Proof.Machine
end

section
/-! FLASH_READ_COMPLETE and SCAN_COMPLETE (O53). -/

namespace Sys2Proof.Machine

section Completions

variable {s : State}

theorem portFetching_eq_false (h : s.chart.port ≠ some .fetch) : s.chart.portFetching = false := beq_eq_false_iff_ne.2 h

theorem flashReadComplete_acts {a n : Nat} (noise : List Byte) (hop : s.chart.op = some (.read a n))
    (hport : s.chart.port = some .read) :
    exec (.flashReadComplete noise) s =
      .next ((s.setChart (s.chart.endRead s.render.fetchWaits)).finish .forecast .ok (s.chart.transfer a n noise)) := by
  change execFlashReadComplete noise s = _
  simp only [execFlashReadComplete, hop, hport]

/-- SCAN_COMPLETE ends the scan, and answers a CHART RESCAN (R136, R147). -/
theorem scanComplete_acts {commanded : Bool} (noise : List Byte) (hop : s.chart.op = some (.rescan commanded))
    (hport : s.chart.port ≠ some .fetch) :
    ∃ t, exec (.scanComplete noise) s = .next t ∧
      t.chart = (s.scanEnds commanded (s.chart.transfer 0 1542 noise)).chart ∧
      t.fault = (s.scanEnds commanded (s.chart.transfer 0 1542 noise)).fault ∧
      (commanded = true → t.forecast.slot = none) := by
  refine ⟨_, rfl, ?_⟩
  simp only [hop, portFetching_eq_false hport, Bool.false_eq_true, if_false, directorySize]
  generalize s.scanEnds commanded _ = u
  cases commanded with
  | false => exact ⟨rfl, rfl, fun h => nomatch h⟩
  | true => exact ⟨rfl, rfl, fun _ => Port.finish_slot _ _ _⟩

/-! ### The end of a scan (R136) -/

variable {bytes : List Byte} (commanded : Bool)

/-- A good directory becomes the image of a VALID store, and nothing is reported (R136). -/
theorem scanEnds_good {d : List DirEntry} (h : parseDirectory bytes = some d) :
    (s.scanEnds commanded bytes).chart = { s.chart with directory := some d, op := none, state := .valid } ∧
      (s.scanEnds commanded bytes).fault = s.fault := by
  simp only [State.scanEnds, h]
  rw [setStoreState_chart, (frame_setStoreState _ _).fault_eq (by simp)]
  exact ⟨rfl, rfl⟩

/-- A bad directory leaves the store ABSENT, and is reported for a CHART RESCAN alone (R136). -/
theorem scanEnds_bad (h : parseDirectory bytes = none) :
    (s.scanEnds commanded bytes).chart = { s.chart with directory := none, op := none, state := .absent } ∧
      (s.scanEnds commanded bytes).fault =
        if commanded = true then s.fault.capture .directoryCheck none s.timing.frame else s.fault := by
  simp only [State.scanEnds, h]
  have hframe := frame_setStoreState (s.setChart { s.chart with directory := none, op := none }) .absent
  cases commanded with
  | false =>
    simp only [Bool.false_eq_true, if_false]
    rw [setStoreState_chart, hframe.fault_eq (by simp)]
    exact ⟨rfl, rfl⟩
  | true =>
    simp only [if_true]
    rw [report_hard_chart _ _ rfl, setStoreState_chart, report_fault, hframe.fault_eq (by simp),
      hframe.timing_eq (by simp) (by simp)]
    exact ⟨rfl, rfl⟩

/-- A scan leaves the flash and no operation in flight, whatever it finds (R136). -/
theorem scanEnds_ended : (s.scanEnds commanded bytes).chart.op = none ∧
    (s.scanEnds commanded bytes).chart.flash = s.chart.flash := by
  cases h : parseDirectory bytes with
  | none => rw [(scanEnds_bad commanded h).1]; exact ⟨rfl, rfl⟩
  | some d => rw [(scanEnds_good commanded h).1]; exact ⟨rfl, rfl⟩

end Completions

/-- Settles O53: the read's reply and the port after it, and the two ends of a scan. -/
theorem readAndScanComplete : Obligations.ReadAndScanComplete := by
  refine ⟨fun s a n noise hop hport => ⟨_, flashReadComplete_acts noise hop hport, rfl, rfl⟩,
    fun s commanded noise hop hport => ?scan⟩
  case scan =>
    obtain ⟨t, hexec, hchart, hfault, hslot⟩ := scanComplete_acts noise hop hport
    obtain ⟨hended, hflash⟩ := scanEnds_ended (s := s) (bytes := s.chart.transfer 0 1542 noise) commanded
    refine ⟨t, hexec, (congrArg Chart.op hchart).trans hended, (congrArg Chart.flash hchart).trans hflash,
      fun d hd => ?good, fun hnone => ?bad, hslot⟩
    case good =>
      obtain ⟨hvalid, hunreported⟩ := scanEnds_good (s := s) commanded hd
      rw [hchart, hfault]
      exact ⟨congrArg Chart.directory hvalid, congrArg Chart.state hvalid, hunreported⟩
    case bad =>
      obtain ⟨habsent, hreported⟩ := scanEnds_bad (s := s) commanded hnone
      rw [hchart, hfault]
      exact ⟨congrArg Chart.directory habsent, congrArg Chart.state habsent,
        fun hc => hreported.trans (if_neg (hc ▸ Bool.false_ne_true)), fun hc => hreported.trans (if_pos hc)⟩

end Sys2Proof.Machine
end

section
/-! FLASH_PROGRAM_COMPLETE and FLASH_ERASE_COMPLETE (O52). -/

namespace Sys2Proof.Machine

/-! ### The bytes of a page (R132, R145) -/

section Bytes

theorem combine_length (f : Byte → Byte → Byte) (xs ys : List Byte) : (combine f xs ys).length = xs.length := by
  induction xs generalizing ys with
  | nil => rfl
  | cons x rest ih => cases ys <;> simp [combine, ih]

/-- The second list counts as zero where it is shorter. -/
theorem combine_getD (f : Byte → Byte → Byte) {xs : List Byte} (ys : List Byte) {i : Nat} (h : i < xs.length) :
    (combine f xs ys).getD i 0 = f (xs.getD i 0) (ys.getD i 0) := by
  induction xs generalizing ys i with
  | nil => exact absurd h (Nat.not_lt_zero i)
  | cons x rest ih =>
    cases i with
    | zero => cases ys <;> rfl
    | succ i =>
      have hi : i < rest.length := Nat.lt_of_succ_lt_succ h
      cases ys with
      | nil => exact ih [] hi
      | cons y ys => exact ih ys hi

theorem Chart.bytes_length (c : Chart) (a n : Nat) : (c.bytes a n).length = n := by simp [Chart.bytes]

theorem Chart.bytes_getD (c : Chart) (a : Nat) {n i : Nat} (h : i < n) : (c.bytes a n).getD i 0 = c.byte (a + i) := by
  simp [Chart.bytes, h]

/-- Each byte of a page after a program: the AND with the byte supplied, but for the bits that fail to take (R132, log 11). -/
theorem programmed_getD {old data : List Byte} (fails : List Byte) {i : Nat} (ho : i < old.length)
    (hd : i < data.length) :
    (programmed old data fails).getD i 0 = old.getD i 0 &&& (data.getD i 0 ||| fails.getD i 0) := by
  unfold programmed
  rw [combine_getD _ _ ho, combine_getD _ _ hd]

end Bytes

/-! ### The read-back (R145) -/

section ReadBack

variable {data back : List Byte}

/-- The status and the result that answer a program (R145). -/
def programReply (data back : List Byte) : Status × List Byte :=
  match mismatches data back with
  | [] => (.ok, [])
  | i :: rest => (.verifyFailed, bytes2 (rest.length + 1) ++ [byteOf i])

theorem programReply_ok (h : ∀ i, i < data.length → back.getD i 0 = data.getD i 0) : programReply data back = (.ok, []) := by
  have hnone : mismatches data back = [] :=
    List.filter_eq_nil_iff.2 fun i hi => by simpa using (h i (List.mem_range.1 hi)).symm
  unfold programReply
  rw [hnone]

/-- The offset of the first byte that differs leads the list of all that do (R145). -/
theorem programReply_failed {i : Nat} (hi : i < data.length) (hne : back.getD i 0 ≠ data.getD i 0)
    (hfirst : ∀ k, k < i → back.getD k 0 = data.getD k 0) :
    programReply data back = (.verifyFailed, bytes2 (mismatches data back).length ++ [byteOf i]) := by
  have hhead : (mismatches data back).head? = some i := by
    rw [mismatches, List.head?_filter, List.find?_range_eq_some]
    exact ⟨by simpa using hne.symm, List.mem_range.2 hi, fun k hk => by simpa using (hfirst k hk).symm⟩
  obtain ⟨rest, hcons⟩ := List.head?_eq_some_iff.1 hhead
  unfold programReply
  rw [hcons, List.length_cons]

end ReadBack

/-! ### What a program or an erase leaves (R145, R146) -/

section Changed

variable (s : State) (flash : Mem Byte) (st : Status) (result : List Byte)

theorem flashChanged_chart : (s.flashChanged flash).chart =
    { s.chart.forget with flash := flash, directory := none, op := none, state := .unscanned } := by
  rw [State.flashChanged, setStoreState_chart, State.setChart_chart]

/-- The state once a program or an erase has ended with its answer (R145, R146). -/
def State.flashEnded : State := (s.flashChanged flash).finish .forecast st result

/-- The notice of the store state goes ahead of the reply (R135, log 18). -/
theorem flashEnded_forecast : (s.flashEnded flash st result).forecast = Port.finish st result
    (if s.chart.state = .unscanned then s.forecast
      else Port.notify ((Notice.chartState .unscanned).packet s.timing.frame) s.forecast) := by
  have hnotified := setStoreState_forecast
    (s.setChart { s.chart.forget with flash := flash, directory := none, op := none }) .unscanned
  exact congrArg (Port.finish st result) hnotified

theorem flashEnded_byte (b : Nat) : (s.flashEnded flash st result).chart.byte b = Mem.read flashDefault flash b := by
  rw [State.flashEnded, State.finish_chart, flashChanged_chart]
  rfl

/-- The store is UNSCANNED with its image, its cache and its lists empty, and the slot is free (R145, R146). -/
abbrev State.storeEmptied (t : State) : Prop :=
  t.chart.state = .unscanned ∧ t.chart.op = none ∧ t.chart.directory = none ∧
    (∀ i : Fin 64, t.chart.cache[i] = none) ∧ t.chart.suspect = [] ∧ t.chart.bad = [] ∧ t.forecast.slot = none

theorem flashEnded_emptied : (s.flashEnded flash st result).storeEmptied := by
  rw [State.storeEmptied, State.flashEnded, State.finish_chart, flashChanged_chart]
  exact ⟨rfl, rfl, rfl, s.chart.forget_cache, rfl, rfl, Port.finish_slot _ _ _⟩

end Changed

section Completed

variable {s : State}

theorem flashEraseComplete_acts {k : Nat} (hop : s.chart.op = some (.erase k)) (hport : s.chart.port ≠ some .fetch) :
    exec .flashEraseComplete s =
      .next (s.flashEnded (Mem.clearRange s.chart.flash (k * 65536) 65536) .ok []) := by
  change execFlashEraseComplete s = _
  simp only [execFlashEraseComplete, hop, portFetching_eq_false hport, Bool.false_eq_true, if_false, State.flashEnded]

/-- The bytes that a page reads back as after a program (R145). -/
def State.readBack (s : State) (a : Nat) (data fails : List Byte) : List Byte :=
  programmed (s.chart.bytes a 256) data fails

/-- The state once the page has been programmed and answered (R145). -/
def State.programEnded (s : State) (a : Nat) (data fails : List Byte) : State :=
  s.flashEnded (flashWrite s.chart.flash a (s.readBack a data fails)) (programReply data (s.readBack a data fails)).1
    (programReply data (s.readBack a data fails)).2

theorem flashProgramComplete_acts {a : Nat} {data : List Byte} (fails : List Byte)
    (hop : s.chart.op = some (.program a data)) (hport : s.chart.port ≠ some .fetch) :
    exec (.flashProgramComplete fails) s = .next (s.programEnded a data fails) := by
  change execFlashProgramComplete fails s = _
  simp only [execFlashProgramComplete, hop, portFetching_eq_false hport, Bool.false_eq_true, if_false,
    State.programEnded, State.readBack, State.flashEnded, programReply]
  cases mismatches data (programmed (s.chart.bytes a 256) data fails) <;> rfl

variable {a : Nat} {data : List Byte} (fails : List Byte)

theorem programEnded_emptied : (s.programEnded a data fails).storeEmptied := flashEnded_emptied _ _ _ _

/-- The reply to a program, behind the notice of the store state (R145, log 18). -/
theorem programEnded_forecast {st : Status} {result : List Byte}
    (h : programReply data (s.readBack a data fails) = (st, result)) :
    (s.programEnded a data fails).forecast = Port.finish st result
      (if s.chart.state = .unscanned then s.forecast
        else Port.notify ((Notice.chartState .unscanned).packet s.timing.frame) s.forecast) := by
  rw [State.programEnded, flashEnded_forecast, h]

theorem readBack_length : (s.readBack a data fails).length = 256 :=
  (combine_length _ _ _).trans (s.chart.bytes_length a 256)

theorem readBack_getD (hd : data.length = 256) {i : Nat} (hi : i < 256) :
    (s.readBack a data fails).getD i 0 = s.chart.byte (a + i) &&& (data.getD i 0 ||| fails.getD i 0) := by
  rw [State.readBack, programmed_getD fails (by rwa [Chart.bytes_length]) (hd ▸ hi), Chart.bytes_getD _ _ hi]

variable (hwf : Mem.wf flashDefault s.chart.flash = true)

include hwf

/-- The page holds what it reads back as (R145). -/
theorem programEnded_byte_in {i : Nat} (hi : i < 256) :
    (s.programEnded a data fails).chart.byte (a + i) = (s.readBack a data fails).getD i 0 := by
  rw [State.programEnded, flashEnded_byte, flashWrite_read_in hwf _ _ (by rwa [readBack_length])]

theorem programEnded_byte_out {b : Nat} (hb : b < a ∨ a + 256 ≤ b) :
    (s.programEnded a data fails).chart.byte b = s.chart.byte b := by
  rw [State.programEnded, flashEnded_byte, flashWrite_read_other hwf _ _ (by rwa [readBack_length])]
  rfl

/-- A program never sets a bit (R132). -/
theorem programEnded_clears (hd : data.length = 256) (b : Nat) :
    (s.programEnded a data fails).chart.byte b &&& s.chart.byte b = (s.programEnded a data fails).chart.byte b := by
  by_cases hb : b < a ∨ a + 256 ≤ b
  · rw [programEnded_byte_out fails hwf hb, BitVec.and_self]
  · obtain ⟨i, rfl⟩ : ∃ i, b = a + i := ⟨b - a, by omega⟩
    rw [programEnded_byte_in fails hwf (by omega), readBack_getD fails hd (by omega), BitVec.and_assoc,
      BitVec.and_comm (data.getD i 0 ||| fails.getD i 0), ← BitVec.and_assoc, BitVec.and_self]

/-- The bytes that differ in the read-back are those that differ in the flash (R145). -/
theorem mismatches_readBack (hd : data.length = 256) :
    mismatches data (s.readBack a data fails) =
      (List.range 256).filter fun k => (s.programEnded a data fails).chart.byte (a + k) ≠ data.getD k 0 := by
  rw [mismatches, hd]
  refine List.filter_congr fun k hk => ?_
  rw [programEnded_byte_in fails hwf (List.mem_range.1 hk)]
  exact decide_eq_decide.2 ne_comm

end Completed

/-- Settles O52: a program that takes every bit, an erase, and a program whose failing bits the row gives. -/
theorem flashChangesItsPageOrSector : Obligations.FlashChangesItsPageOrSector := by
  refine ⟨fun s a data hop hd hport hwf => ?whole, fun s k hop hport => ?erase,
    fun s a data fails hop hd hport hwf => ?partly⟩
  case whole =>
    refine ⟨_, flashProgramComplete_acts [] hop hport, fun i hi => ?_, fun b => programEnded_byte_out [] hwf,
      programEnded_emptied []⟩
    rw [programEnded_byte_in [] hwf hi, readBack_getD [] hd hi]
    exact congrArg _ BitVec.or_zero
  case erase =>
    refine ⟨_, flashEraseComplete_acts hop hport, fun a hlow hhigh => ?_, fun a hout => ?_, flashEnded_emptied _ _ _ _⟩
    · rw [flashEnded_byte, Mem.read_clearRange, if_pos (by omega)]
      rfl
    · rw [flashEnded_byte, Mem.read_clearRange, if_neg (by omega)]
      rfl
  case partly =>
    have hpage {i : Nat} (hi : i < 256) := programEnded_byte_in (a := a) (data := data) fails hwf hi
    obtain ⟨hstate, hended, hdirectory, hcache, hsuspect, hbad, hslot⟩ :=
      programEnded_emptied (s := s) (a := a) (data := data) fails
    refine ⟨_, flashProgramComplete_acts fails hop hport, programEnded_clears fails hwf hd,
      fun b => programEnded_byte_out fails hwf, hstate, hended, hdirectory, hcache, hsuspect, hbad, hslot,
      fun hall => programEnded_forecast fails ?ok, fun i hi hne hfirst => programEnded_forecast fails ?failed⟩
    case ok =>
      refine programReply_ok fun i hi => ?_
      rw [← hpage (hd ▸ hi)]
      exact hall i (hd ▸ hi)
    case failed =>
      rw [← mismatches_readBack fails hwf hd]
      refine programReply_failed (hd ▸ hi) (by rwa [← hpage hi]) fun k hk => ?_
      rw [← hpage (hk.trans hi)]
      exact hfirst k hk

end Sys2Proof.Machine
end

section
/-! A report's capture, and a held HARD fault record through every step (O50). -/

namespace Sys2Proof.Machine

/-! ### The capture table (R149) -/

section Capture

variable {u : FaultUnit} {k : FaultKind} (tile : Option Nat) (n : FrameNumber) {r : FaultRecord}

theorem FaultUnit.capture_empty (h : u.record = none) :
    u.capture k tile n = ⟨some ⟨k.severity, k, tile, n⟩, false, u.mode⟩ := by
  simp only [FaultUnit.capture, h]

theorem FaultUnit.capture_hard_on_soft (h : u.record = some r) (hr : r.severity = .soft) (hk : k.severity = .hard) :
    u.capture k tile n = ⟨some ⟨.hard, k, tile, n⟩, true, u.mode⟩ := by
  simp only [FaultUnit.capture, h, hr, hk]

theorem FaultUnit.capture_soft_on_soft (h : u.record = some r) (hr : r.severity = .soft) (hk : k.severity = .soft) :
    u.capture k tile n = ⟨some r, true, .bypass⟩ := by
  simp only [FaultUnit.capture, h, hr, hk]

theorem FaultUnit.capture_on_hard (h : u.record = some r) (hr : r.severity = .hard) :
    u.capture k tile n = ⟨some r, true, u.mode⟩ := by
  simp only [FaultUnit.capture, h, hr]

end Capture

/-! ### What the coastline store reports (R136, R139, R151) -/

section Reports

variable {s t : State}

/-- The fault unit is as it was, or has captured one fault with the frame number current. -/
def CapturesAtMostOne (s t : State) : Prop :=
  t.fault = s.fault ∨ ∃ k tile, t.fault = s.fault.capture k tile s.timing.frame

/-- A fault reported after a change of blocks outside the timing generator and the fault unit. -/
theorem Frame.reports {bs : List Block} (h : Frame bs s t) (hc : Block.clock ∉ bs) (ht : Block.timing ∉ bs)
    (hf : Block.fault ∉ bs) (k : FaultKind) (tile : Option Nat) : CapturesAtMostOne s (t.report k tile) :=
  .inr ⟨k, tile, by rw [report_fault, h.fault_eq hf, h.timing_eq hc ht]⟩

/-- A hit with bad parity is reported (R151). -/
theorem serveCached_captures (s : State) (r : TileRequest) : CapturesAtMostOne s (s.serveCached r).1 := by
  unfold State.serveCached
  split
  · exact .inl rfl
  · split
    · exact .inl rfl
    · exact (frame_setChart s _).reports (by simp) (by simp) (by simp) _ _

theorem serveWorking_fault (s : State) (r : TileRequest) : (s.serveWorking r).1.fault = s.fault := by
  unfold State.serveWorking
  split
  · rfl
  · split <;> rfl

theorem serveTile_captures (s : State) (r : TileRequest) : CapturesAtMostOne s (s.serveTile r).1 := by
  unfold State.serveTile
  split
  · exact .inl rfl
  · split
    · exact serveCached_captures s r
    · exact .inl (serveWorking_fault s r)

theorem drawItem_captures (s : State) (j : Job) (it : DrawItem) : CapturesAtMostOne s (s.drawItem j it) := by
  unfold State.drawItem
  split
  case h_1 => exact .inl rfl
  case h_2 r _ =>
    have hserved := serveTile_captures s r
    split
    case h_1 t a he =>
      rw [he] at hserved
      exact hserved
    case h_2 t he =>
      rw [he] at hserved
      exact hserved

theorem giveUp_captures (s : State) (tile : Nat) : CapturesAtMostOne s (s.giveUp tile).1 := by
  unfold State.giveUp
  dsimp only
  split
  · exact (frame_setChart s _).reports (by simp) (by simp) (by simp) _ _
  · exact (((frame_setChart s _).mono (by simp)).trans (frame_setStoreState _ _)).reports (by simp) (by simp) (by simp) _ _

theorem endFetch_captures (s : State) (r : TileRequest) (noise : List Byte) :
    CapturesAtMostOne s (s.endFetch r noise).1 := by
  unfold State.endFetch State.failFetch
  split
  · exact .inl rfl
  · split
    · exact .inl ((frame_passFetch s _ _).fault_eq (by simp))
    · split
      · exact giveUp_captures s _
      · split
        · exact (frame_setChart s _).reports (by simp) (by simp) (by simp) _ _
        · exact giveUp_captures s _

theorem scanEnds_captures (s : State) (commanded : Bool) (bytes : List Byte) :
    CapturesAtMostOne s (s.scanEnds commanded bytes) := by
  cases hd : parseDirectory bytes with
  | some d => exact .inl (scanEnds_good commanded hd).2
  | none =>
    have hbad := (scanEnds_bad (s := s) commanded hd).2
    cases commanded with
    | false => exact .inl hbad
    | true => exact .inr ⟨_, _, hbad⟩

end Reports

/-! ### A held HARD record (R149) -/

section Held

variable {s t : State} {r : FaultRecord}

/-- The fault unit holds the record (R149). -/
abbrev State.Records (r : FaultRecord) (s : State) : Prop := s.fault.record = some r

theorem State.records_congr (h : t.fault = s.fault) (hs : s.Records r) : t.Records r := by
  rw [State.Records, h]
  exact hs

theorem reads_records (r : FaultRecord) : Reads [.fault] (State.Records r) := fun s t h hs =>
  State.records_congr (show t.fault = s.fault from h .fault (by simp)) hs

/-- A CACHE RESTORE carried out changes the mode alone of the fault unit (R155). -/
theorem restoreCache_records (l : Link) (hs : s.Records r) : (s.restoreCache l).Records r := by
  rw [State.Records, restoreCache_fault]
  exact hs

theorem ownCacheRestore_records (p : Packet) (hs : s.Records r) : (ownCacheRestore p s).Records r := by
  unfold ownCacheRestore
  split
  · exact restoreCache_records p.link hs
  · exact hs

/-- The job's end and the work that waits for it leave the record (R128, R130). -/
theorem completeJob_record (s : State) (j : Job) : (s.completeJob j).fault.record = s.fault.record := by
  unfold State.completeJob
  dsimp only
  generalize s.render.setBuffer j.buffer _ = v
  split
  · rw [endJob_record, State.notify_fault, State.setRender_fault, State.setRender_fault]
  · rw [endJob_record, State.setRender_fault]

variable (hr : r.severity = .hard)
include hr

/-- No further fault replaces a HARD record (R149). -/
theorem CapturesAtMostOne.records (h : CapturesAtMostOne s t) (hs : s.Records r) : t.Records r := by
  obtain hsame | ⟨k, tile, hcaptured⟩ := h
  · exact State.records_congr hsame hs
  · rw [State.Records, hcaptured, FaultUnit.capture_on_hard _ _ hs hr]

theorem drawItems_records (items : List DrawItem) (hs : s.Records r) : (s.drawItems items).Records r :=
  drawItems_induction (P := State.Records r) (fun s j it h _ _ => (drawItem_captures s j it).records hr h) s items hs

theorem afterFetch_records (hs : s.Records r) : s.afterFetch.Records r := by
  unfold State.afterFetch
  split
  · exact drawItems_records hr _ hs
  · exact hs

end Held

/-! ### Every command but FAULT READ and power-on reset (R149, R154) -/

section Commands

variable {r : FaultRecord}

theorem keepsRecord_cacheRestore (p : Packet) : Keeps (State.Records r) (.cacheRestore p) :=
  keeps_packet (reads_records r) (by simp [packetBlocks]) (fun _ => rfl) fun _ => ownCacheRestore_records p

theorem keepsRecord_cacheRestoreApply (l : Link) : Keeps (State.Records r) (.cacheRestoreApply l) := fun s hs => by
  refine ⟨_, rfl, ?_⟩
  split
  · exact (applyRestore_record s l).trans hs
  · exact hs

variable (hr : r.severity = .hard)
include hr

theorem keepsRecord_tileFetchComplete (noise : List Byte) : Keeps (State.Records r) (.tileFetchComplete noise) :=
  fun s hs => by
    refine ⟨_, rfl, ?_⟩
    dsimp only
    split
    case h_1 j it q _ _ =>
      have hended : (s.runJob.endFetch q noise).1.Records r :=
        (endFetch_captures s.runJob q noise).records hr (drawItems_records hr _ hs)
      split
      · exact afterFetch_records hr hended
      · exact afterFetch_records hr ((discardJob_record _ j _).trans hended)
    case h_2 => exact hs

theorem keepsRecord_jobComplete : Keeps (State.Records r) .jobComplete := fun s hs => by
  refine ⟨_, rfl, ?_⟩
  dsimp only
  split
  · exact (completeJob_record _ _).trans (drawItems_records hr _ hs)
  · exact hs

theorem keepsRecord_cacheHitParityError (tile : Fin 256) : Keeps (State.Records r) (.cacheHitParityError tile) :=
  fun s hs => by
    refine ⟨_, rfl, ?_⟩
    dsimp only
    split
    · split
      · exact drawItems_records hr _ hs
      · exact hs
    · exact hs

theorem keepsRecord_scanComplete (noise : List Byte) : Keeps (State.Records r) (.scanComplete noise) := fun s hs => by
  refine ⟨_, rfl, ?_⟩
  dsimp only
  split
  · split
    · exact hs
    · have hended (commanded : Bool) (bytes : List Byte) : (s.scanEnds commanded bytes).Records r :=
        (scanEnds_captures s commanded bytes).records hr hs
      split
      · exact State.records_congr (State.finish_fault _ _ _ _) (hended _ _)
      · exact hended _ _
  · exact hs

theorem keepsRecord {c : Instr} (hread : ∀ p, c ≠ .faultRead p) (hreset : ∀ high, c ≠ .powerOnReset high) :
    Keeps (State.Records r) c := by
  cases c with
  | faultRead p => exact absurd rfl (hread p)
  | powerOnReset high => exact absurd rfl (hreset high)
  | tileFetchComplete noise => exact keepsRecord_tileFetchComplete hr noise
  | jobComplete => exact keepsRecord_jobComplete hr
  | cacheHitParityError tile => exact keepsRecord_cacheHitParityError hr tile
  | scanComplete noise => exact keepsRecord_scanComplete hr noise
  | cacheRestore p => exact keepsRecord_cacheRestore p
  | cacheRestoreApply l => exact keepsRecord_cacheRestoreApply l
  | _ => exact keeps_untouched (reads_records r) (by simp [touched, packetBlocks])

/-- With an empty queue a step draws, which may report a fault, and moves the clock (log 1, log 9). -/
theorem tick_records {s : State} (hs : s.Records r) : s.tick.Records r := by
  have hdrawn : s.drawOne.Records r := drawItems_records hr _ hs
  unfold State.tick State.passPeriod
  split
  · exact (reads_records r).framed (frame_advanceTo _ _) (by simp) hdrawn
  · exact hdrawn

end Commands

/-- Settles O50: no fault replaces a HARD record, and of the commands only the two excluded ones empty it. -/
theorem hardFaultIsKept : Obligations.HardFaultIsKept := by
  intro s t r hs hr hread hreset hstep
  cases hpending : s.pending with
  | nil =>
    simp only [step, hpending, Host.Outcome.next.injEq] at hstep
    exact hstep ▸ tick_records hr hs
  | cons c rest =>
    simp only [step, hpending] at hstep
    have hkeeps : Keeps (State.Records r) c :=
      keepsRecord hr (fun p hc => hread p rest (hc ▸ hpending)) fun high hc => hreset high rest (hc ▸ hpending)
    obtain ⟨u, hu, hkept⟩ := hkeeps (s.withPending rest) hs
    obtain rfl : u = t := by simpa only [hu, Host.Outcome.next.injEq] using hstep
    exact hkept

end Sys2Proof.Machine
end

section
/-! CACHE_HIT_PARITY_ERROR: the hit that finds its parity wrong (O46). -/

namespace Sys2Proof.Machine

/-! ### The corrupted entry (R138, log 15) -/

section Entry

variable {cache : Vector (Option CacheEntry) 64} {tile : Nat}

/-- The entry found for a tile is valid and holds that tile (R138). -/
theorem cacheIndex_spec (h : (cacheIndex cache tile).isSome = true) :
    ∃ (i : Fin 64) (e : CacheEntry), cacheIndex cache tile = some i.val ∧ cache[i] = some e ∧ e.tile = tile := by
  obtain ⟨i, hi⟩ := Option.isSome_iff_exists.1 h
  obtain ⟨hlength, htest, -⟩ := List.findIdx?_eq_some_iff_getElem.1 hi
  rw [Vector.length_toList] at hlength
  rw [Vector.getElem_toList] at htest
  cases he : cache[i] with
  | none => simp [he] at htest
  | some e => exact ⟨⟨i, hlength⟩, e, hi, he, by simpa [he] using htest⟩

/-- A corrupted entry is still the one found for its tile (log 15). -/
theorem cacheIndex_corrupt : cacheIndex (cacheCorrupt cache tile) tile = cacheIndex cache tile := by
  unfold cacheIndex cacheCorrupt
  rw [Vector.toList_map, List.findIdx?_map]
  congr 1
  funext o
  cases o with
  | none => rfl
  | some e => by_cases h : e.tile = tile <;> simp [h]

theorem cacheEntry_corrupt (h : (cacheIndex cache tile).isSome = true) :
    ∃ e, cacheEntry (cacheCorrupt cache tile) tile = some e ∧ e.parityGood = false := by
  obtain ⟨i, e, hindex, he, htile⟩ := cacheIndex_spec h
  have hcorrupted : (cacheCorrupt cache tile)[i] = some { e with parityGood := false } := by
    rw [cacheCorrupt, Fin.getElem_fin, Vector.getElem_map, ← Fin.getElem_fin, he]
    exact if_pos htile
  refine ⟨{ e with parityGood := false }, ?_, rfl⟩
  simp only [cacheEntry, cacheIndex_corrupt, hindex]
  rw [Vector.getElem?_eq_getElem i.isLt, ← Fin.getElem_fin, hcorrupted]
  rfl

end Entry

/-! ### The request that hits it (R137, R151) -/

section Request

variable {s : State} {j : Job} {it : DrawItem} {rest : List DrawItem} {r : TileRequest}

/-- The tile's entry is gone and a CACHE_PARITY fault has been reported (R151). -/
def State.parityReported (s : State) (tile : Nat) : State :=
  (s.setChart { s.chart with cache := cacheDrop s.chart.cache tile }).report .cacheParity (some tile)

theorem serveTile_parityError {e : CacheEntry} (hq : s.chart.quickAnswer r = none) (hmode : s.fault.mode = .normal)
    (he : cacheEntry s.chart.cache r.tile = some e) (hparity : e.parityGood = false) :
    s.serveTile r = (s.parityReported r.tile, .fetch) := by
  simp only [State.serveTile, State.serveCached, hq, hmode, he, hparity, State.parityReported, Bool.false_eq_true, if_false]

/-- A job whose next item needs a fetch draws nothing and waits for it (R126). -/
theorem runJob_awaits {t : State} (hj : s.render.job = some j) (hf : j.fetching = none)
    (hitems : (j.items s.store.lists).drop j.drawn = it :: rest) (hr : j.request it = some r)
    (hserved : s.serveTile r = (t, .fetch)) : s.runJob = t.awaitFetch j r.tile := by
  have hremaining : s.remaining = it :: rest := by simp only [State.remaining, hj, hitems]
  have hitem : s.drawItem j it = t.awaitFetch j r.tile := by simp only [State.drawItem, hr, hserved]
  have hwaits : (t.awaitFetch j r.tile).render.job = some { j with fetching := some r.tile } := rfl
  calc s.runJob = (s.drawItem j it).drawItems rest := by
        simp only [State.runJob, hremaining, State.drawItems, hj, hf, Option.isSome_none, Bool.false_eq_true, if_false]
    _ = t.awaitFetch j r.tile := by rw [hitem, drawItems_fetching rest hwaits rfl]

/-- The state in which the entry of the tile no longer agrees with its parity (log 15). -/
def State.corrupted (s : State) (tile : Nat) : State :=
  s.setChart { s.chart with cache := cacheCorrupt s.chart.cache tile }

/-- CACHE_HIT_PARITY_ERROR at the job's next item reports the fault and begins the refetch (R151). -/
theorem cacheHitParityError_refetches {tile : Fin 256} (hj : s.render.job = some j) (hf : j.fetching = none)
    (hitems : (j.items s.store.lists).drop j.drawn = it :: rest) (hr : j.request it = some r) (htile : r.tile = tile.val)
    (hq : s.chart.quickAnswer r = none) (hmode : s.fault.mode = .normal)
    (hhit : (cacheIndex s.chart.cache tile.val).isSome = true) :
    exec (.cacheHitParityError tile) s =
      .next (((s.corrupted tile.val).parityReported tile.val).awaitFetch j tile.val) := by
  obtain ⟨e, he, hparity⟩ := cacheEntry_corrupt hhit
  have hserved : (s.corrupted tile.val).serveTile r = ((s.corrupted tile.val).parityReported r.tile, .fetch) :=
    serveTile_parityError hq hmode (htile ▸ he) hparity
  have hrun := runJob_awaits (s := s.corrupted tile.val) hj hf hitems hr hserved
  rw [htile] at hrun
  have hcondition : s.fault.mode = .normal ∧ s.render.job.isSome ∧ (cacheIndex s.chart.cache tile.val).isSome :=
    ⟨hmode, by rw [hj]; rfl, hhit⟩
  change execCacheHitParityError tile s = _
  unfold execCacheHitParityError
  dsimp only
  rw [if_pos hcondition, ← State.corrupted, hrun]
  exact congrArg _ (if_pos rfl)

end Request

/-! ### What the refetch leaves (R149-R152) -/

section Refetch

variable (s : State) (j : Job) (tile : Nat)

/-- A SOFT fault on a held SOFT record puts the cache in BYPASS (R149). -/
theorem FaultUnit.capture_escalates {u : FaultUnit} {k : FaultKind} (h : u.escalates k = true) (x : Option Nat)
    (n : FrameNumber) : (u.capture k x n).mode = .bypass := by
  unfold FaultUnit.escalates at h
  split at h
  case h_1 r hrecord hk => rw [FaultUnit.capture_soft_on_soft _ _ hrecord (by simpa using h) hk]
  case h_2 => exact nomatch h
  case h_3 => exact nomatch h

theorem parityReported_fault :
    (s.parityReported tile).fault = s.fault.capture .cacheParity (some tile) s.timing.frame := report_fault _ _ _

theorem parityReported_forecast : (s.parityReported tile).forecast =
    Port.notify ((Notice.fault .cacheParity (some tile)).packet s.timing.frame) s.forecast := report_forecast _ _ _

/-- The entry is invalidated, and every other with it where the cache enters BYPASS (R151, R152). -/
theorem parityReported_chart : (s.parityReported tile).chart =
    if s.fault.escalates .cacheParity = true then s.chart.flush
    else { s.chart with cache := cacheDrop s.chart.cache tile } := by
  unfold State.parityReported
  rw [report_chart]
  rfl

variable {s tile}

theorem parityReported_flushed (h : s.fault.escalates .cacheParity = true) (i : Fin 64) :
    (s.parityReported tile).chart.cache[i] = none := by
  rw [parityReported_chart, if_pos h]
  exact s.chart.flush_cache i

theorem parityReported_dropped {i : Fin 64} {e : CacheEntry} (h : (s.parityReported tile).chart.cache[i] = some e) :
    e.tile ≠ tile := by
  by_cases hescalates : s.fault.escalates .cacheParity = true
  · exact nomatch (parityReported_flushed hescalates i).symm.trans h
  · rw [parityReported_chart, if_neg hescalates] at h
    exact cacheDrop_ne h

/-- Only the cache changes of the coastline store (R151, R152). -/
theorem parityReported_kept : (s.parityReported tile).chart.port = s.chart.port ∧
    (s.parityReported tile).chart.suspect = s.chart.suspect ∧ (s.parityReported tile).chart.bad = s.chart.bad := by
  rw [parityReported_chart]
  split <;> exact ⟨rfl, rfl, rfl⟩

/-- A fetch that the job awaits takes the flash port where that is free (R142). -/
theorem awaitFetch_port (h : s.chart.port = none) : (s.awaitFetch j tile).chart.port = some .fetch := by
  simp only [State.awaitFetch, State.setChart_chart, h]

end Refetch

/-- Settles O46: the next item's request hits the corrupted entry, and the job waits for the fetch that follows. -/
theorem parityErrorRefetches : Obligations.ParityErrorRefetches := by
  intro s j it rest r tile hj hf hitems hr htile hq hmode hhit
  obtain ⟨hport, hsuspect, hbad⟩ := parityReported_kept (s := s.corrupted tile.val) (tile := tile.val)
  have hfault := parityReported_fault (s.corrupted tile.val) tile.val
  refine ⟨_, cacheHitParityError_refetches hj hf hitems hr htile hq hmode hhit, rfl, fun i e => parityReported_dropped,
    hfault, fun hescalates => ⟨?bypass, parityReported_flushed hescalates⟩,
    fun hfree => awaitFetch_port j (hport.trans hfree), hsuspect, hbad, parityReported_forecast _ _⟩
  case bypass => exact (congrArg FaultUnit.mode hfault).trans (FaultUnit.capture_escalates hescalates _ _)

end Sys2Proof.Machine
end

section
/-! The capture table, the bytes of FAULT READ, and what it empties (O49). -/

namespace Sys2Proof.Machine

/-! ### The bytes of the record (R154, R182, log 19) -/

section Result

variable {u : FaultUnit} {r : FaultRecord}

theorem FaultUnit.result_empty (h : u.record = none) : u.result = 0 :: (List.replicate 9 absentByte ++ [u.mode.code]) := by
  simp only [FaultUnit.result, h, List.cons_append]

theorem FaultUnit.result_held (h : u.record = some r) :
    u.result = [1, r.severity.code, r.kind.code] ++ tileBytes r.tile ++ frameBytes r.frame ++
      [flagByte u.more, u.mode.code] := by
  simp only [FaultUnit.result, h, List.append_assoc, List.cons_append, List.nil_append]

end Result

/-- A parity error is the one SOFT fault (Table 9-2). -/
theorem FaultKind.severity_soft_iff (k : FaultKind) : k.severity = .soft ↔ k = .cacheParity := by
  cases k <;> decide

/-- Settles O49: R149's table case by case, the bytes of an EMPTY and of a held record, and FAULT READ of a taken packet. -/
theorem faultRecordFollowsTable : Obligations.FaultRecordFollowsTable := by
  refine ⟨fun u k tile n => ⟨FaultUnit.capture_empty tile n, fun _ => FaultUnit.capture_hard_on_soft tile n,
    fun _ => FaultUnit.capture_soft_on_soft tile n, fun _ => FaultUnit.capture_on_hard tile n, k.severity_soft_iff⟩,
    ?bytes, fun p s ht => ?read⟩
  case bytes =>
    intro u mode
    refine ⟨fun hnone => ?empty, fun r hr => ?held⟩
    case empty => rw [FaultUnit.result_empty hnone]; rfl
    case held => rw [FaultUnit.result_held hr]; rfl
  case read =>
    have hrun : exec (.faultRead p) s = .next (ownFaultRead p (s.taken .faultRead p)) := exec_of_takes rfl ht
    have hfault : (ownFaultRead p (s.taken .faultRead p)).fault = s.fault.emptied := by
      rw [ownFaultRead, State.finish_fault, State.setFault_fault, State.taken_fault]
    refine ⟨_, hrun, ?_⟩
    rw [hfault]
    refine ⟨rfl, rfl, rfl, ?_⟩
    rw [ownFaultRead, State.finish_port, State.setFault_port, State.taken_fault]

end Sys2Proof.Machine
end

section
/-! The header code's encoding: what each step of it leaves at every position, and the fields that a header word carries (O54). -/

namespace Sys2Proof.Machine

/-! ### Fields at their positions (R160) -/

section Fields

variable (w : HeaderWord)

/-- The number carried by a list of positions, on top of a number carried by positions before it. -/
theorem foldl_fieldAt (ps : List Nat) (a : Nat) :
    ps.foldl (fun acc p => 2 * acc + (if headerBit w p then 1 else 0)) a = a * 2 ^ ps.length + fieldAt w ps := by
  induction ps generalizing a with
  | nil => simp [fieldAt]
  | cons p rest ih =>
    unfold fieldAt
    simp only [List.foldl_cons, ih, List.length_cons]
    ring

theorem fieldAt_cons (p : Nat) (ps : List Nat) :
    fieldAt w (p :: ps) = 2 ^ ps.length * (headerBit w p).toNat + fieldAt w ps := by
  have h := foldl_fieldAt w ps (2 * 0 + if headerBit w p then 1 else 0)
  refine Eq.trans h ?_
  cases headerBit w p <;> simp

/-- A field depends on the bits at its positions alone. -/
theorem fieldAt_congr {w v : HeaderWord} {ps : List Nat} (h : ∀ q ∈ ps, headerBit w q = headerBit v q) :
    fieldAt w ps = fieldAt v ps := by
  induction ps with
  | nil => rfl
  | cons p rest ih =>
    rw [fieldAt_cons, fieldAt_cons, h p (by simp), ih fun q hq => h q (List.mem_cons_of_mem _ hq)]

/-- The first position takes the field's most significant bit, the positions after it the rest. -/
theorem placeField_cons (p : Nat) (ps : List Nat) (v : Nat) :
    placeField w (p :: ps) v = placeField (if v.testBit ps.length then invertPosition w p else w) ps v := by
  unfold placeField
  rw [List.zipIdx_cons, List.foldl_cons, List.zipIdx_succ, List.foldl_map]
  simp only [List.length_cons, Nat.add_sub_cancel, Nat.sub_zero, Nat.sub_add_eq, Nat.sub_right_comm _ _ 1]

theorem headerBit_placeField_other {ps : List Nat} (v : Nat) {q : Nat} (hq : q < 32) (hps : ∀ p ∈ ps, p < 32) (hn : q ∉ ps) :
    headerBit (placeField w ps v) q = headerBit w q := by
  induction ps generalizing w with
  | nil => rfl
  | cons p rest ih =>
    obtain ⟨hne, hrest⟩ := not_or.1 (mt List.mem_cons.2 hn)
    rw [placeField_cons, ih _ (fun x hx => hps x (List.mem_cons_of_mem _ hx)) hrest]
    split
    · rw [headerBit_invert w (hps p (by simp)) hq, decide_eq_false (Ne.symm hne), Bool.xor_false]
    · rfl

/-- A word holds 0 at every listed position. -/
def ClearAt (w : HeaderWord) (ps : List Nat) : Prop := ∀ q ∈ ps, headerBit w q = false

/-- A field that is placed where every bit was 0 is carried there. -/
theorem fieldAt_placeField {ps : List Nat} (v : Nat) (hps : ∀ p ∈ ps, p < 32) (hd : ps.Nodup)
    (hz : ClearAt w ps) : fieldAt (placeField w ps v) ps = v % 2 ^ ps.length := by
  induction ps generalizing w with
  | nil => simp [fieldAt, Nat.mod_one]
  | cons p rest ih =>
    obtain ⟨hp, hdrest⟩ := List.nodup_cons.1 hd
    have hp32 : p < 32 := hps p (by simp)
    have hrest : ∀ q ∈ rest, q < 32 := fun q hq => hps q (List.mem_cons_of_mem _ hq)
    have hkept : ∀ q, q < 32 → headerBit (if v.testBit rest.length then invertPosition w p else w) q =
        (headerBit w q ^^ (v.testBit rest.length && decide (p = q))) := by
      intro q hq
      split <;> simp_all [headerBit_invert]
    rw [placeField_cons, fieldAt_cons, headerBit_placeField_other _ v hp32 hrest hp, hkept p hp32, hz p (by simp),
      ih _ hrest hdrest fun q hq => ?zero, List.length_cons, Nat.mod_pow_succ]
    case zero =>
      rw [hkept q (hrest q hq), hz q (List.mem_cons_of_mem _ hq), decide_eq_false fun e : p = q => hp (e ▸ hq)]
      simp
    simp [Nat.toNat_testBit, Nat.add_comm]

end Fields

theorem ClearAt.placeField {w : HeaderWord} {ps qs : List Nat} (h : ClearAt w qs) (v : Nat) (hps : ∀ p ∈ ps, p < 32)
    (hqs : ∀ q ∈ qs, q < 32 ∧ q ∉ ps) : ClearAt (placeField w ps v) qs := fun q hq =>
  (headerBit_placeField_other w v (hqs q hq).1 hps (hqs q hq).2).trans (h q hq)

/-- Placing a field leaves a field at other positions. -/
theorem fieldAt_placeField_other (w : HeaderWord) {ps qs : List Nat} (v : Nat) (hps : ∀ p ∈ ps, p < 32)
    (hqs : ∀ q ∈ qs, q < 32 ∧ q ∉ ps) : fieldAt (placeField w ps v) qs = fieldAt w qs :=
  fieldAt_congr fun q hq => headerBit_placeField_other w v (hqs q hq).1 hps (hqs q hq).2

/-! ### The check positions and the parity (R160) -/

section Checks

variable (w : HeaderWord)

theorem syndromeOver_lt {l : List Nat} (hl : ∀ q ∈ l, q < 2 ^ 5) {a : Nat} (ha : a < 2 ^ 5) : syndromeOver w l a < 2 ^ 5 := by
  induction l generalizing a with
  | nil => exact ha
  | cons p rest ih =>
    refine ih (fun q hq => hl q (List.mem_cons_of_mem _ hq)) ?_
    dsimp only
    split
    · exact Nat.xor_lt_two_pow ha (hl p (by simp))
    · exact ha

/-- The syndrome has five bits. -/
theorem syndrome_lt : syndrome w < 2 ^ 5 := syndromeOver_lt w (fun _ hq => List.mem_range.1 hq) (by decide)

/-- The check positions of the listed bits of `v` inverted. -/
def checksOver (v : Nat) (bits : List Nat) (w : HeaderWord) : HeaderWord :=
  bits.foldl (fun acc i => if v.testBit i then invertPosition acc (2 ^ i) else acc) w

theorem setChecks_eq : setChecks w = checksOver (syndrome w) [0, 1, 2, 3, 4] w := rfl

theorem checksOver_cons (v i : Nat) (bits : List Nat) :
    checksOver v (i :: bits) w = checksOver v bits (if v.testBit i then invertPosition w (2 ^ i) else w) := rfl

/-- Each check position that is inverted changes its own bit of the syndrome. -/
theorem syndrome_checksOver (v : Nat) {bits : List Nat} (hb : ∀ i ∈ bits, i < 5) (hd : bits.Nodup) (j : Nat) :
    (syndrome (checksOver v bits w)).testBit j = ((syndrome w).testBit j ^^ (decide (j ∈ bits) && v.testBit j)) := by
  induction bits generalizing w with
  | nil => simp [checksOver]
  | cons i rest ih =>
    obtain ⟨hi, hdrest⟩ := List.nodup_cons.1 hd
    have hpos : 2 ^ i < 32 := Nat.pow_lt_pow_right (by decide) (hb i (by simp))
    have hstep : (syndrome (if v.testBit i then invertPosition w (2 ^ i) else w)).testBit j =
        ((syndrome w).testBit j ^^ (decide (i = j) && v.testBit j)) := by
      by_cases hij : i = j
      · subst hij
        cases hv : v.testBit i <;> simp [syndrome_invert w hpos, Nat.testBit_xor]
      · split <;> simp [syndrome_invert w hpos, Nat.testBit_xor, Nat.testBit_two_pow_of_ne, hij]
    rw [checksOver_cons, ih _ (fun k hk => hb k (List.mem_cons_of_mem _ hk)) hdrest, hstep]
    by_cases hij : i = j
    · subst hij; simp [hi]
    · simp [hij, Ne.symm hij]

theorem headerBit_checksOver_other (v : Nat) {bits : List Nat} (hb : ∀ i ∈ bits, i < 5) {q : Nat} (hq : q < 32)
    (hn : ∀ i ∈ bits, 2 ^ i ≠ q) : headerBit (checksOver v bits w) q = headerBit w q := by
  induction bits generalizing w with
  | nil => rfl
  | cons i rest ih =>
    have hpos : 2 ^ i < 32 := Nat.pow_lt_pow_right (by decide) (hb i (by simp))
    rw [checksOver_cons, ih _ (fun k hk => hb k (List.mem_cons_of_mem _ hk)) fun k hk => hn k (List.mem_cons_of_mem _ hk)]
    split
    · rw [headerBit_invert w hpos hq, decide_eq_false (hn i (by simp)), Bool.xor_false]
    · rfl

/-- The check positions bring the syndrome to 0. -/
theorem syndrome_setChecks : syndrome (setChecks w) = 0 := by
  refine Nat.eq_of_testBit_eq fun j => ?_
  rw [setChecks_eq, syndrome_checksOver w _ (by decide) (by decide), Nat.zero_testBit]
  by_cases hj : j < 5
  · have hmem : j ∈ [0, 1, 2, 3, 4] := by simp; omega
    simp [hmem]
  · have hzero : (syndrome w).testBit j = false :=
      Nat.testBit_lt_two_pow ((syndrome_lt w).trans_le (Nat.pow_le_pow_right (by decide) (Nat.not_lt.1 hj)))
    simp [hzero]

/-- Position 0 brings the count of 1s to an even number and leaves the syndrome. -/
theorem setParity_even : parityOdd (setParity w) = false ∧ syndrome (setParity w) = syndrome w := by
  unfold setParity
  cases h : parityOdd w
  · exact ⟨h, rfl⟩
  · exact ⟨by simp [parityOdd_invert w, h], by simp [syndrome_invert w]⟩

theorem headerBit_setParity_other {q : Nat} (hq : q < 32) (hn : q ≠ 0) : headerBit (setParity w) q = headerBit w q := by
  unfold setParity
  split
  · rw [headerBit_invert w (by decide) hq, decide_eq_false hn.symm, Bool.xor_false]
  · rfl

end Checks

/-! ### The encoded header (R160, R179) -/

section Encoded

variable (h : Header)

/-- The check positions and position 0 apart, an encoded header holds its fields as they are placed. -/
theorem headerBit_encodeHeader {q : Nat} (hq : q < 32) (hn : q ∉ [0, 1, 2, 4, 8, 16]) :
    headerBit (encodeHeader h) q = headerBit (placeFields h) q := by
  simp only [List.mem_cons, List.not_mem_nil, or_false, not_or] at hn
  obtain ⟨h0, h1, h2, h4, h8, h16⟩ := hn
  rw [encodeHeader, headerBit_setParity_other _ hq h0, setChecks_eq, headerBit_checksOver_other _ _ (by decide) hq]
  simp [Ne.symm h1, Ne.symm h2, Ne.symm h4, Ne.symm h8, Ne.symm h16]

/-- The word that carries the direction alone. -/
def directionWord : HeaderWord := if h.away then invertPosition 0 3 else 0

theorem headerBit_directionWord {q : Nat} (hq : q < 32) :
    headerBit (directionWord h) q = (h.away && decide (3 = q)) := by
  have hzero : ∀ q, headerBit 0 q = false := fun q => by simp [headerBit]
  unfold directionWord
  split <;> simp_all [headerBit_invert]

theorem placeFields_eq :
    placeFields h = placeField (placeField (placeField (placeField (directionWord h) kindPositions h.kind.toNat)
      tagPositions h.tag.toNat) lengthPositions h.length.toNat) argPositions h.arg.toNat := rfl

theorem fieldAt_encodeHeader {ps : List Nat} (hps : ∀ q ∈ ps, q < 32 ∧ q ∉ [0, 1, 2, 4, 8, 16]) :
    fieldAt (encodeHeader h) ps = fieldAt (placeFields h) ps :=
  fieldAt_congr fun q hq => headerBit_encodeHeader h (hps q hq).1 (hps q hq).2

theorem headerBit_placeFields_direction : headerBit (placeFields h) 3 = h.away := by
  rw [placeFields_eq]
  repeat rw [headerBit_placeField_other _ _ (by decide) (by decide) (by decide)]
  rw [headerBit_directionWord h (by decide)]
  simp

theorem clearAt_directionWord {ps : List Nat} (hps : ∀ q ∈ ps, q < 32 ∧ q ≠ 3) : ClearAt (directionWord h) ps := by
  intro q hq
  obtain ⟨hlt, hne⟩ := hps q hq
  rw [headerBit_directionWord h hlt, decide_eq_false hne.symm, Bool.and_false]

theorem fieldAt_placeFields_kind : fieldAt (placeFields h) kindPositions = h.kind.toNat := by
  have hclear : ClearAt (directionWord h) kindPositions := clearAt_directionWord h (by decide)
  rw [placeFields_eq, fieldAt_placeField_other _ _ (by decide) (by decide), fieldAt_placeField_other _ _ (by decide) (by decide),
    fieldAt_placeField_other _ _ (by decide) (by decide), fieldAt_placeField _ _ (by decide) (by decide) hclear]
  exact Nat.mod_eq_of_lt h.kind.isLt

theorem fieldAt_placeFields_tag : fieldAt (placeFields h) tagPositions = h.tag.toNat := by
  have hclear : ClearAt (directionWord h) tagPositions := clearAt_directionWord h (by decide)
  rw [placeFields_eq, fieldAt_placeField_other _ _ (by decide) (by decide), fieldAt_placeField_other _ _ (by decide) (by decide),
    fieldAt_placeField _ _ (by decide) (by decide) (hclear.placeField _ (by decide) (by decide))]
  exact Nat.mod_eq_of_lt h.tag.isLt

theorem fieldAt_placeFields_length : fieldAt (placeFields h) lengthPositions = h.length.toNat := by
  have hclear : ClearAt (directionWord h) lengthPositions := clearAt_directionWord h (by decide)
  rw [placeFields_eq, fieldAt_placeField_other _ _ (by decide) (by decide), fieldAt_placeField _ _ (by decide) (by decide)
    ((hclear.placeField _ (by decide) (by decide)).placeField _ (by decide) (by decide))]
  exact Nat.mod_eq_of_lt h.length.isLt

theorem fieldAt_placeFields_arg : fieldAt (placeFields h) argPositions = h.arg.toNat := by
  have hclear : ClearAt (directionWord h) argPositions := clearAt_directionWord h (by decide)
  rw [placeFields_eq, fieldAt_placeField _ _ (by decide) (by decide) (((hclear.placeField _ (by decide)
    (by decide)).placeField _ (by decide) (by decide)).placeField _ (by decide) (by decide))]
  exact Nat.mod_eq_of_lt h.arg.isLt

/-- Each field is read from positions of its own, which the check positions leave. -/
theorem headerFields_encodeHeader : headerFields (encodeHeader h) = h := by
  have hdirection : headerBit (encodeHeader h) 3 = h.away :=
    (headerBit_encodeHeader h (by decide) (by decide)).trans (headerBit_placeFields_direction h)
  have hkind := (fieldAt_encodeHeader h (ps := kindPositions) (by decide)).trans (fieldAt_placeFields_kind h)
  have htag := (fieldAt_encodeHeader h (ps := tagPositions) (by decide)).trans (fieldAt_placeFields_tag h)
  have hlength := (fieldAt_encodeHeader h (ps := lengthPositions) (by decide)).trans (fieldAt_placeFields_length h)
  have harg := (fieldAt_encodeHeader h (ps := argPositions) (by decide)).trans (fieldAt_placeFields_arg h)
  simp only [headerFields, hdirection, hkind, htag, hlength, harg, BitVec.ofNat_toNat, BitVec.setWidth_eq]

/-- An encoded header has an even count of 1s and syndrome 0. -/
theorem encodeHeader_even : parityOdd (encodeHeader h) = false ∧ syndrome (encodeHeader h) = 0 := by
  obtain ⟨heven, hsyndrome⟩ := setParity_even (setChecks (placeFields h))
  exact ⟨heven, hsyndrome.trans (syndrome_setChecks _)⟩

end Encoded

/-- Settles O54: the fields stand at positions of their own, and an encoded header has even parity and syndrome 0. -/
theorem headerCodeCorrectsOneError : Obligations.HeaderCodeCorrectsOneError := by
  intro h
  obtain ⟨heven, hsyndrome⟩ := encodeHeader_even h
  obtain ⟨hgood, hone, htwo⟩ := decode_errors heven hsyndrome
  exact ⟨hgood, headerFields_encodeHeader h, hone, htwo⟩

end Sys2Proof.Machine
end

section
/-! The receiver: line faults, start bytes and headers, and the packet that a row completes (O55, O56). -/

namespace Sys2Proof.Machine

/-! ### A change of one port -/

section Ports

variable (s : State) (l : Link) {g : Port → Port}

theorem State.mapPort_eq {v : Port} (h : g (s.port l) = v) : s.mapPort l g = s.setPort l v := congrArg (s.setPort l) h

theorem State.mapPort_self (h : g (s.port l) = s.port l) : s.mapPort l g = s := by
  rw [State.mapPort_eq s l h]
  cases l <;> rfl

end Ports

/-! ### Line faults (R158, R159, R170) -/

section LineFaults

variable {s : State} {l : Link}

theorem framingError_taken (h : (s.port l).held = false) : exec (.framingError l) s = .next (s.setPort l { s.port l with
    rx := .hunting, packet := none, summary := { (s.port l).summary with framing := true } }) :=
  congrArg Host.Outcome.next (State.mapPort_eq s l (if_neg (Bool.eq_false_iff.1 h)))

theorem receiveTimeout_taken (h : (s.port l).rx ≠ .hunting) : exec (.receiveTimeout l) s = .next (s.setPort l { s.port l with
    rx := .hunting, packet := none, summary := { (s.port l).summary with timeout := true } }) := by
  refine congrArg Host.Outcome.next (State.mapPort_eq s l ?_)
  split
  · contradiction
  · rfl
  · rfl

theorem lineBreak_recognised (h : (s.port l).held = false) : exec (.lineBreak l) s = .next (s.setPort l { s.port l with
    rx := .hunting, packet := none, held := true, queue := [], tx := none, summary := Summary.empty
    suppressed := (s.port l).suppressed || (s.port l).slot.isSome }) :=
  congrArg Host.Outcome.next (State.mapPort_eq s l (if_neg (Bool.eq_false_iff.1 h)))

theorem lineBreakEnd_resumes (h : (s.port l).held = true) : exec (.lineBreakEnd l) s = .next (s.setPort l
    (Port.pump { s.port l with rx := .hunting, packet := none, held := false })) :=
  congrArg Host.Outcome.next (State.mapPort_eq s l (if_pos h))

end LineFaults

/-- Settles O56: each of the four events replaces the port of its link and nothing else. -/
theorem lineFaultsResetTheReceiver : Obligations.LineFaultsResetTheReceiver := fun _ _ =>
  ⟨framingError_taken, receiveTimeout_taken, lineBreak_recognised, lineBreakEnd_resumes⟩

/-! ### Start bytes (R159) -/

section StartBytes

variable {s : State} {l : Link}

theorem startByte_hunting (h : (s.port l).held = false) (hx : (s.port l).rx = .hunting) :
    exec (.startByte l) s = .next (s.setPort l { s.port l with rx := .header, packet := some ⟨[], none⟩ }) := by
  refine congrArg Host.Outcome.next (State.mapPort_eq s l ?_)
  simp only [h, hx, Bool.false_eq_true, if_false]

theorem startByte_data (h : (s.port l).held = false) (hx : (s.port l).rx ≠ .hunting) : exec (.startByte l) s = .next s := by
  refine congrArg Host.Outcome.next (State.mapPort_self s l ?_)
  simp only [h, Bool.false_eq_true, if_false]
  split
  · contradiction
  · rfl
  · rfl

end StartBytes

/-! ### Headers (R160, R161) -/

section Headers

variable {w v : HeaderWord} {p : Port}

theorem Port.useHeader_long (h : 1024 < (headerFields v).length.toNat) :
    Port.useHeader v p = Port.flag (fun f => { f with headerLost := true }) (Port.hunt p) := if_pos h

theorem Port.useHeader_away (h : (headerFields v).length.toNat ≤ 1024) (ha : (headerFields v).away = true) :
    Port.useHeader v p = Port.flag (fun f => { f with direction := true }) (Port.hunt p) := by
  simp only [Port.useHeader, if_neg (Nat.not_lt.2 h), if_pos ha]

theorem Port.useHeader_used (h : (headerFields v).length.toNat ≤ 1024) (ha : (headerFields v).away = false) :
    Port.useHeader v p = { p with
      rx := if (headerFields v).length = 0 then .hunting else .payload
      packet := some ⟨headerBytes v, some (headerFields v)⟩ } := by
  simp only [Port.useHeader, if_neg (Nat.not_lt.2 h), if_neg (Bool.eq_false_iff.1 ha)]

/-- What a port in HEADER makes of a header that has come: HEADER_CORRECTED where one position is corrected, then its use, or its
loss (R160, R161). -/
def Port.headerCame (w : HeaderWord) (p : Port) : Port :=
  match decodeHeader w with
  | .good v => Port.useHeader v p
  | .corrected v => Port.useHeader v (Port.flag (fun f => { f with headerCorrected := true }) p)
  | .lost => Port.flag (fun f => { f with headerLost := true }) (Port.hunt p)

theorem headerReceived_header {s : State} {l : Link} (w : HeaderWord) (h : (s.port l).held = false)
    (hx : (s.port l).rx = .header) : exec (.headerReceived l w) s = .next (s.mapPort l (Port.headerCame w)) := by
  refine congrArg Host.Outcome.next (State.mapPort_eq s l ?_)
  simp only [h, hx, Bool.false_eq_true, if_false]
  rfl

theorem Port.headerCame_lost (h : decodeHeader w = .lost) :
    Port.headerCame w p = Port.flag (fun f => { f with headerLost := true }) (Port.hunt p) := by
  unfold Port.headerCame
  rw [h]

/-- The port with HEADER_CORRECTED added where the header `w` decodes to `v` with one position corrected (R160). -/
def Port.noteCorrection (w v : HeaderWord) (p : Port) : Port :=
  Port.flag (fun f => { f with headerCorrected := f.headerCorrected || decide (decodeHeader w = .corrected v) }) p

theorem Port.headerCame_decoded (h : decodeHeader w = .good v ∨ decodeHeader w = .corrected v) :
    Port.headerCame w p = Port.useHeader v (Port.noteCorrection w v p) := by
  unfold Port.headerCame Port.noteCorrection
  rcases h with h | h <;> rw [h]
  · simp [Port.flag]
  · simp

end Headers

/-! ### The packet that a row completes (R159, R161, log 5) -/

section Completes

variable {r : Port} {code : BitVec 7} {p : Packet}

/-- With four header bytes before it, the rest of a packet of a permitted length brings every byte that its own header calls for. -/
theorem RxPacket.complete_own {hb : List Byte} (h4 : hb.length = 4) (hl : p.payload.length ≤ 1024) :
    RxPacket.complete ⟨hb ++ packetBody p, some (packetHeader code p)⟩ = true := by
  have hn : (packetHeader code p).length.toNat = p.payload.length := by
    simp only [packetHeader, BitVec.toNat_ofNat]; omega
  have hz : (packetHeader code p).length = 0 ↔ p.payload = [] := by
    rw [← BitVec.toNat_inj, hn]; simp
  by_cases he : p.payload = []
  · simp [RxPacket.complete, packetBody, h4, he, hz.2 he]
  · have hne : ¬(packetHeader code p).length = 0 := mt hz.1 he
    simp only [RxPacket.complete, packetBody, hn, hl, if_neg hne]
    simp [he, h4, bytes2]

theorem Port.completes_held (h : r.held = true) : r.completes code p = false := by simp [Port.completes, h]

theorem Port.completes_header (h : r.held = false) (hx : r.rx = .header) (hl : p.payload.length ≤ 1024) :
    r.completes code p = true := by
  have hc := RxPacket.complete_own (code := code) (hb := headerBytes (encodeHeader (packetHeader code p))) rfl hl
  simp [Port.completes, Port.collect, h, hx, hc]

/-- With a header received, the row completes the packet whose header it is, and no other. -/
theorem Port.completes_after_header {w : HeaderWord} {h : Header} (hf : r.held = false) (hx : r.rx ≠ .header)
    (hp : r.packet = some ⟨headerBytes w, some h⟩) (hl : p.payload.length ≤ 1024) :
    r.completes code p = true ↔ h = packetHeader code p := by
  have hcollect : r.collect code p = some ⟨headerBytes w ++ packetBody p, some h⟩ := by
    unfold Port.collect
    cases hr : r.rx with
    | header => exact absurd hr hx
    | hunting => simp only [hp]
    | payload => simp only [hp]
  simp only [Port.completes, hf, hcollect, Bool.not_false, Bool.true_and, Bool.and_eq_true, beq_iff_eq, Option.some.injEq,
    and_iff_right_iff_imp]
  rintro rfl
  exact RxPacket.complete_own rfl hl

end Completes

/-- Settles O55: the start byte, the header by its decoding, its length and its direction, and the packet that a row completes. -/
theorem receiverFindsPackets : Obligations.ReceiverFindsPackets := by
  refine ⟨fun l s hf => ⟨startByte_hunting hf, startByte_data hf⟩, fun l s w hf hx => ?header, fun r code p hl => ?packet⟩
  case header =>
    refine ⟨_, headerReceived_header w hf hx, fun hlost => ?_,
      fun v hv => ⟨fun hlong => ?_, fun hle ha => ?_, fun hle ha => ?_⟩⟩
    · rw [State.mapPort_port, Port.headerCame_lost hlost]
      exact ⟨rfl, rfl, rfl⟩
    · rw [State.mapPort_port, Port.headerCame_decoded hv, Port.useHeader_long hlong]
      exact ⟨rfl, rfl, rfl⟩
    · rw [State.mapPort_port, Port.headerCame_decoded hv, Port.useHeader_away hle ha]
      exact ⟨rfl, rfl, rfl⟩
    · rw [State.mapPort_port, Port.headerCame_decoded hv, Port.useHeader_used hle ha]
      refine ⟨rfl, ?_, ?_, rfl⟩ <;> by_cases hz : (headerFields v).length = 0 <;> simp [hz]
  case packet =>
    exact ⟨Port.completes_held, fun hf hx hp => Port.completes_hunting code p hf hx hp hl,
      fun hf hx => Port.completes_header hf hx hl, fun w h hf hx hp => Port.completes_after_header hf hx hp hl⟩

end Sys2Proof.Machine
end

section
/-! The transmit queue: which packet the transmitter takes, and what a reply and a notice make of the queue (O57). -/

namespace Sys2Proof.Machine

/-! ### The packet that the transmitter takes (R167) -/

section TakeNext

variable {a b : List TxPacket} {x : TxPacket}

/-- Notices alone hold no reply. -/
theorem find?_reply_of_notices (h : ∀ y ∈ a, y.isNotice = true) : a.find? (fun p => !p.isNotice) = none := by
  rw [List.find?_eq_none]
  intro y hy
  simp [h y hy]

/-- The oldest reply goes first, past the notices ahead of it. -/
theorem takeNext_reply (hx : x.isNotice = false) (ha : ∀ y ∈ a, y.isNotice = true) :
    takeNext (a ++ x :: b) = some (x, a ++ b) := by
  have hfind : (a ++ x :: b).find? (fun p => !p.isNotice) = some x := by
    rw [List.find?_append, find?_reply_of_notices ha, Option.none_or, List.find?_cons_of_pos (by simp [hx])]
  have hrest : (a ++ x :: b).eraseP (fun p => !p.isNotice) = a ++ b := by
    rw [List.eraseP_append_right _ (fun y hy => by simp [ha y hy]), List.eraseP_cons_of_pos (by simp [hx])]
  simp only [takeNext, hfind, hrest]

/-- With no reply in the queue the oldest notice goes. -/
theorem takeNext_notice (h : ∀ y ∈ x :: b, y.isNotice = true) : takeNext (x :: b) = some (x, b) := by
  simp only [takeNext, find?_reply_of_notices h]

theorem takeNext_nil : takeNext [] = none := rfl

/-- A queue of one packet gives it up. -/
theorem takeNext_singleton (x : TxPacket) : takeNext [x] = some (x, []) := by
  cases hx : x.isNotice
  · exact takeNext_reply (a := []) hx (by simp)
  · exact takeNext_notice (by simp [hx])

end TakeNext

/-! ### The transmitter (R167) -/

section Pump

variable {p : Port}

theorem Port.pump_takes {x : TxPacket} {rest : List TxPacket} (hf : p.held = false) (ht : p.tx = none)
    (hq : takeNext p.queue = some (x, rest)) : Port.pump p = { p with tx := some x, queue := rest } := by
  simp only [Port.pump, hf, ht, hq, Bool.false_eq_true, if_false]

theorem Port.pump_empty (hq : p.queue = []) : Port.pump p = p := by
  unfold Port.pump
  rw [hq, takeNext_nil]
  split
  · rfl
  · split <;> rfl

/-- The packet in transmission has gone, and the transmitter takes the next. -/
def Port.sent (p : Port) : Port := Port.pump { p with tx := none }

theorem Port.sent_empty (hq : p.queue = []) : p.sent = { p with tx := none } := Port.pump_empty hq

theorem Port.sent_takes {x : TxPacket} {rest : List TxPacket} (hf : p.held = false) (hq : takeNext p.queue = some (x, rest)) :
    p.sent = { p with tx := some x, queue := rest } := Port.pump_takes hf rfl hq

theorem transmitEnd_sent {s : State} {l : Link} (ht : (s.port l).tx ≠ none) :
    exec (.transmitEnd l) s = .next (s.setPort l (s.port l).sent) := by
  refine congrArg Host.Outcome.next (State.mapPort_eq s l ?_)
  split
  · contradiction
  · rfl

end Pump

/-! ### A full queue (R168, R169) -/

section Full

variable {a b : List TxPacket} {x : TxPacket}

/-- The newest notice is the last one: only replies stand behind it. -/
theorem dropNewestNotice_append (hx : x.isNotice = true) (hb : ∀ y ∈ b, y.isNotice = false) :
    dropNewestNotice (a ++ x :: b) = some (a ++ b) := by
  have hany : (a ++ x :: b).any (fun p => p.isNotice) = true := by simp [hx]
  have hrest : (a ++ x :: b).reverse.eraseP (fun p => p.isNotice) = b.reverse ++ a.reverse := by
    rw [List.reverse_append, List.reverse_cons, List.append_assoc,
      List.eraseP_append_right _ (fun y hy => by simp [hb y (List.mem_reverse.1 hy)]), List.singleton_append,
      List.eraseP_cons_of_pos hx]
  rw [dropNewestNotice, if_pos hany, hrest, List.reverse_append, List.reverse_reverse, List.reverse_reverse]

theorem dropNewestNotice_replies (h : ∀ y ∈ a, y.isNotice = false) : dropNewestNotice a = none := by
  have hany : a.any (fun p => p.isNotice) = false := List.any_eq_false.2 fun y hy => by simp [h y hy]
  simp [dropNewestNotice, hany]

end Full

/-! ### Replies (R165, R169) -/

section Replies

variable {p : Port} {kind : BitVec 7} {tag : BitVec 3} {arg : BitVec 4} {st : Status} {r : List Byte}

theorem Port.reply_room (h : p.queue.length < 8) :
    Port.reply kind tag arg st r p = Port.pump { p with
      queue := p.queue ++ [replyPacket kind tag arg st p.summary r], summary := Summary.empty } := if_pos h

theorem Port.reply_displaces {rest : List TxPacket} (h : 8 ≤ p.queue.length) (hd : dropNewestNotice p.queue = some rest) :
    Port.reply kind tag arg st r p = Port.pump { p with
      queue := rest ++ [replyPacket kind tag arg st { p.summary with noticeLost := true } r], summary := Summary.empty } := by
  simp only [Port.reply, queueLimit, if_neg (Nat.not_lt.2 h), hd]

theorem Port.reply_dropped (h : 8 ≤ p.queue.length) (hd : dropNewestNotice p.queue = none) :
    Port.reply kind tag arg st r p = { p with summary := { p.summary with replyLost := true } } := by
  simp only [Port.reply, queueLimit, if_neg (Nat.not_lt.2 h), hd]

end Replies

/-! ### A command answered while a packet is in transmission (R165, R169) -/

section Answers

variable {p : Port} {c : CmdRecord} {st : Status} {r : List Byte}

theorem Port.pump_of_answers (h : p.answers c) (q : List TxPacket) (f : Summary) :
    Port.pump { p with queue := q, summary := f } = { p with queue := q, summary := f } := by
  obtain ⟨-, -, ht⟩ := h
  obtain ⟨x, hx⟩ := Option.isSome_iff_exists.1 ht
  exact Port.pump_of_tx hx

theorem Port.finish_room (h : p.answers c) (hq : p.queue.length < 8) :
    Port.finish st r p = { p with
      slot := none, summary := Summary.empty
      queue := p.queue ++ [replyPacket c.kind.code c.tag c.arg st p.summary r] } := by
  rw [Port.finish_reply st r h.1 h.2.1, Port.reply_room hq, Port.pump_of_answers h]

theorem Port.finish_displaces (h : p.answers c) (hq : 8 ≤ p.queue.length) {rest : List TxPacket}
    (hd : dropNewestNotice p.queue = some rest) :
    Port.finish st r p = { p with
      slot := none, summary := Summary.empty
      queue := rest ++ [replyPacket c.kind.code c.tag c.arg st { p.summary with noticeLost := true } r] } := by
  rw [Port.finish_reply st r h.1 h.2.1, Port.reply_displaces hq hd, Port.pump_of_answers h]

theorem Port.finish_dropped (h : p.answers c) (hq : 8 ≤ p.queue.length) (hd : dropNewestNotice p.queue = none) :
    Port.finish st r p = { p with slot := none, summary := { p.summary with replyLost := true } } := by
  rw [Port.finish_reply st r h.1 h.2.1, Port.reply_dropped hq hd]

end Answers

/-! ### A free line with nothing queued (R167) -/

section Free

variable {p : Port}

/-- A packet that is queued there goes into transmission at once. -/
theorem Port.pump_free (hf : p.held = false) (ht : p.tx = none) (hq : p.queue = []) (x : TxPacket) (f : Summary) :
    Port.pump { p with queue := p.queue ++ [x], summary := f } = { p with tx := some x, summary := f } := by
  have hnext : takeNext (p.queue ++ [x]) = some (x, []) := by rw [hq]; exact takeNext_singleton x
  rw [Port.pump_takes (p := { p with queue := p.queue ++ [x], summary := f }) hf ht hnext, ← hq]

theorem Port.notify_free (hf : p.held = false) (ht : p.tx = none) (hq : p.queue = []) (n : TxPacket) :
    Port.notify n p = { p with tx := some n } := by
  have hroom : p.queue.length < queueLimit := by rw [hq]; decide
  exact (if_pos hroom).trans (Port.pump_free hf ht hq n p.summary)

theorem Port.finish_free {c : CmdRecord} {st : Status} {r : List Byte} (hf : p.held = false) (ht : p.tx = none)
    (hq : p.queue = []) (hs : p.slot = some c) (hm : p.suppressed = false) :
    Port.finish st r p = { p with
      slot := none, summary := Summary.empty
      tx := some (replyPacket c.kind.code c.tag c.arg st p.summary r) } := by
  have hroom : p.queue.length < 8 := by rw [hq]; decide
  rw [Port.finish_reply st r hs hm, Port.reply_room hroom, Port.pump_free hf ht hq]

end Free

/-! ### Notices while a packet is in transmission (R168) -/

theorem Port.notify_room {p : Port} (n : TxPacket) (hq : p.queue.length < 8) (ht : p.tx.isSome = true) :
    Port.notify n p = { p with queue := p.queue ++ [n] } := by
  obtain ⟨x, hx⟩ := Option.isSome_iff_exists.1 ht
  exact (if_pos hq).trans (Port.pump_of_tx hx)

theorem Port.notify_full {p : Port} (n : TxPacket) (hq : 8 ≤ p.queue.length) :
    Port.notify n p = { p with summary := { p.summary with noticeLost := true } } := if_neg (Nat.not_lt.2 hq)

/-- Settles O57: the transmitter's choice by what the queue holds, and a reply and a notice by the room that the queue has. -/
theorem transmitQueueKeepsItsOrder : Obligations.TransmitQueueKeepsItsOrder := by
  refine ⟨fun l s hf ht => ⟨_, transmitEnd_sent ht, ?transmit⟩, fun p c st r h => ⟨Port.finish_slot st r p, ?reply⟩,
    fun p c st r hs hm => Port.finish_suppressed st r hs hm,
    fun p hf ht hq => ⟨Port.notify_free hf ht hq, fun c st r => Port.finish_free hf ht hq⟩,
    fun p n => ⟨Port.notify_room n, Port.notify_full n⟩⟩
  case transmit =>
    rw [State.setPort_port]
    refine ⟨fun hq => ?empty, fun a x b hq hx ha => ?oldestReply, fun x b hq h => ?oldestNotice⟩
    case empty => rw [Port.sent_empty hq]; exact ⟨rfl, hq⟩
    case oldestReply => rw [Port.sent_takes hf (hq ▸ takeNext_reply hx ha)]; exact ⟨rfl, rfl⟩
    case oldestNotice => rw [Port.sent_takes hf (hq ▸ takeNext_notice h)]; exact ⟨rfl, rfl⟩
  case reply =>
    refine ⟨fun hq => ?room, fun a x b hq he hx hb => ?displaces, fun hq hr => ?dropped⟩
    case room => rw [Port.finish_room h hq]; exact ⟨rfl, rfl⟩
    case displaces => rw [Port.finish_displaces h hq (he ▸ dropNewestNotice_append hx hb)]; exact ⟨rfl, rfl⟩
    case dropped => rw [Port.finish_dropped h hq (dropNewestNotice_replies hr)]; exact ⟨rfl, rfl⟩

end Sys2Proof.Machine
end

section
/-! Command handling: the port's refusals in their order, for each of the 35 packet commands and for unknown kinds (O58). -/

namespace Sys2Proof.Machine

/-! ### The port's checks, in their order (R162, R163) -/

section Refusals

variable {k : Kind} {p : Packet} {s : State}

/-- The payload check passes where there is no payload or its CRC agrees (R163). -/
theorem crcHolds_iff : crcHolds p = true ↔ p.payload = [] ∨ crc16 p.payload = p.crc := by
  rw [crcHolds, Bool.or_eq_true, List.isEmpty_iff, beq_iff_eq]

theorem portRefusal_role (hr : k.permitted p.link = false) : portRefusal k p s = some .role := by
  simp [portRefusal, hr]

theorem portRefusal_length (hr : k.permitted p.link = true) (hl : lengthPermitted k p s = false) :
    portRefusal k p s = some .length := by
  simp [portRefusal, hr, hl]

theorem portRefusal_dataError (hr : k.permitted p.link = true) (hl : lengthPermitted k p s = true) (hc : crcHolds p = false) :
    portRefusal k p s = some .dataError := by
  simp [portRefusal, hr, hl, hc]

theorem portRefusal_none (hr : k.permitted p.link = true) (hl : lengthPermitted k p s = true) (hc : crcHolds p = true) :
    portRefusal k p s = none := by
  simp [portRefusal, hr, hl, hc]

/-- A payload whose CRC disagrees fails the check. -/
theorem crcHolds_eq_false (hne : p.payload ≠ []) (hcrc : crc16 p.payload ≠ p.crc) : crcHolds p = false :=
  Bool.eq_false_iff.2 (mt crcHolds_iff.1 (not_or.2 ⟨hne, hcrc⟩))

/-- A complete packet that finds the slot free and passes the port's checks is taken (R162). -/
theorem takes_of_checks (hh : (s.port p.link).completes k.code p = true) (hs : (s.port p.link).slot = none)
    (hr : portRefusal k p s = none) : takes k p s = true := by
  simp [takes, hh, hs, hr]

end Refusals

/-! ### Command handling of a packet that is complete (R162, R164) -/

section Handling

variable {k : Kind} {p : Packet} {s : State} (own : Packet → State → State)

/-- BUSY while the slot is busy, else ROLE, LENGTH or DATA_ERROR by the first check that fails. -/
theorem serve_refuses (hh : (s.port p.link).completes k.code p = true) :
    ((s.port p.link).slot ≠ none → serve k p own s = (s.arrive p).refuse k.code p .busy) ∧
    ((s.port p.link).slot = none →
      (k.permitted p.link = false → serve k p own s = (s.arrive p).refuse k.code p .role) ∧
      (k.permitted p.link = true → lengthPermitted k p s = false →
        serve k p own s = (s.arrive p).refuse k.code p .length) ∧
      (k.permitted p.link = true → lengthPermitted k p s = true → p.payload ≠ [] → crc16 p.payload ≠ p.crc →
        serve k p own s = (s.arrive p).refuse k.code p .dataError)) :=
  ⟨fun hs => serve_busy own hh (Option.isSome_iff_ne_none.2 hs), fun hs =>
    ⟨fun hr => serve_refused own hh hs (portRefusal_role hr), fun hr hl => serve_refused own hh hs (portRefusal_length hr hl),
      fun hr hl hne hcrc => serve_refused own hh hs (portRefusal_dataError hr hl (crcHolds_eq_false hne hcrc))⟩⟩

theorem serve_passed (hh : (s.port p.link).completes k.code p = true) (hs : (s.port p.link).slot = none)
    (hr : k.permitted p.link = true) (hl : lengthPermitted k p s = true) (hc : p.payload = [] ∨ crc16 p.payload = p.crc) :
    serve k p own s = own p (s.taken k p) :=
  serve_taken own (takes_of_checks hh hs (portRefusal_none hr hl (crcHolds_iff.2 hc)))

end Handling

/-! ### Unknown kinds (R162, R164) -/

section Unknown

variable {kind : BitVec 7} {p : Packet} {s : State}

theorem unknownPacket_refused (hk : kindOfCode kind = none) (hh : (s.port p.link).completes kind p = true) :
    exec (.unknownPacket kind p) s = .next ((s.arrive p).refuse kind p
      (if (s.port p.link).slot = none then .unknown else .busy)) := by
  refine congrArg Host.Outcome.next ?_
  have hslot : ((s.arrive p).port p.link).slot = (s.port p.link).slot := by rw [State.arrive_port]; rfl
  simp only [hk, hh, hslot, Option.isSome_none, Bool.not_true, Bool.or_false, Bool.false_eq_true, if_false]
  cases (s.port p.link).slot <;> rfl

theorem unknownPacket_incomplete (hh : (s.port p.link).completes kind p = false) :
    exec (.unknownPacket kind p) s = .next s := by
  refine congrArg Host.Outcome.next (if_pos ?_)
  rw [hh, Bool.not_false, Bool.or_true]

end Unknown

/-! ### Every packet command (R162) -/

/-- Each packet command is command handling of its kind, with an owner of its own. -/
theorem exec_command (k : Kind) (p : Packet) :
    ∃ own : Packet → State → State, ∀ s, exec (k.command p) s = .next (serve k p own s) := by
  cases k <;> exact ⟨_, fun _ => rfl⟩

/-- Settles O58: the port's checks in their order, and each of the 35 commands as command handling of its kind. -/
theorem portRefusesInOrder : Obligations.PortRefusesInOrder := by
  refine ⟨fun k p own s hh => ?handling, exec_command, fun k p s hh => ?commands, fun k p s hh => ?incomplete,
    fun kind p s hk => ⟨unknownPacket_refused hk, unknownPacket_incomplete⟩⟩
  case handling =>
    obtain ⟨hbusy, hchecks⟩ := serve_refuses own hh
    refine ⟨hbusy, fun hs => ?_⟩
    obtain ⟨hrole, hlength, hdata⟩ := hchecks hs
    exact ⟨hrole, hlength, hdata, serve_passed own hh hs⟩
  case commands =>
    obtain ⟨own, hexec⟩ := exec_command k p
    simpa only [hexec, Host.Outcome.next.injEq] using serve_refuses own hh
  case incomplete =>
    obtain ⟨own, hexec⟩ := exec_command k p
    rw [hexec, serve_incomplete own hh]

end Sys2Proof.Machine
end

section
/-! STATUS and ECHO (O59). -/

namespace Sys2Proof.Machine

/-! ### The bytes of STATUS (R182) -/

section Bytes

variable (s : State)

/-- A timeline's four bytes of the STATUS result. -/
def Timeline.statusBytes (t : Timeline) : List Byte := [t.state.code, byteOf t.s, byteOf (t.q / 256), byteOf t.q]

/-- The 34 bytes in their places. -/
theorem statusBytes_eq :
    s.statusBytes =
      frameBytes s.timing.frame ++
        [s.timing.refState.code, rateCodeByte s.timing.rate, s.output.state.code, byteOf s.output.level,
          pageByte s.pages.loaded, pageByte s.pages.outgoing, pageByte s.render.frontTag, presentByte s.render.job,
          flagByte s.render.late] ++
        s.timelines[(0 : Fin 4)].statusBytes ++ s.timelines[(1 : Fin 4)].statusBytes ++
        s.timelines[(2 : Fin 4)].statusBytes ++ s.timelines[(3 : Fin 4)].statusBytes ++
        [s.chart.state.code, s.fault.mode.code, presentByte s.fault.record, presentByte s.memo.forecastToStudio,
          presentByte s.memo.studioToForecast] := by
  have htimelines : s.timelines.toList =
      [s.timelines[(0 : Fin 4)], s.timelines[(1 : Fin 4)], s.timelines[(2 : Fin 4)], s.timelines[(3 : Fin 4)]] := by
    refine List.ext_getElem (by simp) fun i h _ => ?_
    rw [Vector.length_toList] at h
    interval_cases i <;> rfl
  rw [State.statusBytes, htimelines]
  rfl

/-- The four bytes of each timeline. -/
theorem statusBytes_timeline (n : Fin 4) :
    s.statusBytes.getD (13 + 4 * n.val) 0 = s.timelines[n].state.code ∧
      s.statusBytes.getD (14 + 4 * n.val) 0 = byteOf s.timelines[n].s ∧
      (s.statusBytes.drop (15 + 4 * n.val)).take 2 = bytes2 s.timelines[n].q := by
  rw [statusBytes_eq]
  fin_cases n <;> exact ⟨rfl, rfl, rfl⟩

/-- What the bytes depend on. -/
theorem statusBytes_congr {t : State} (htiming : t.timing = { s.timing with now := t.timing.now })
    (hstate : t.output.state = s.output.state) (hacc : t.output.acc = s.output.acc) (hpages : t.pages = s.pages)
    (htimelines : t.timelines = s.timelines) (hrender : t.render = s.render) (hchart : t.chart = s.chart)
    (hfault : t.fault = s.fault) (hmemo : t.memo = s.memo) : t.statusBytes = s.statusBytes := by
  have hlevel : t.output.level = s.output.level := congrArg (· / 256) hacc
  rw [State.statusBytes, State.statusBytes, hstate, hlevel, hpages, htimelines, hrender, hchart, hfault, hmemo, htiming]

end Bytes

/-- A packet that is taken changes none of the bytes. -/
theorem statusBytes_taken (k : Kind) (p : Packet) (s : State) : (s.taken k p).statusBytes = s.statusBytes :=
  statusBytes_congr s (by rw [State.taken_timing]) (State.taken_output_state s p k) (State.taken_output_acc s p k)
    (State.taken_pages s p k) (State.taken_timelines s p k) (State.taken_render s p k) (State.taken_chart s p k)
    (State.taken_fault s p k) (State.taken_memo s p k)

/-- The notices of a frame start change none of the bytes. -/
theorem statusBytes_queueAll (s : State) (ps : List Posting) : (s.queueAll ps).statusBytes = s.statusBytes := by
  have hf := frame_queueAll s ps
  have htiming := hf.timing_eq (by simp) (by simp)
  have houtput := hf.output_eq (by simp) (by simp)
  exact statusBytes_congr s (by rw [htiming]) (by rw [houtput]) (by rw [houtput]) (hf.pages_eq (by simp))
    (hf.timelines_eq (by simp)) (hf.render_eq (by simp)) (hf.chart_eq (by simp)) (hf.fault_eq (by simp)) (hf.memo_eq (by simp))

/-! ### STATUS and ECHO of a taken packet (R171) -/

section Taken

variable {p : Packet} {s : State}

theorem status_answers (h : takes .status p s = true) :
    exec (.status p) s = .next ((s.taken .status p).finish p.link .ok (s.taken .status p).oneSide.statusBytes) :=
  exec_of_takes (own := ownStatus) rfl h

theorem echo_answers (h : takes .echo p s = true) :
    exec (.echo p) s = .next ((s.taken .echo p).finish p.link .ok p.payload) :=
  exec_of_takes (own := ownEcho) rfl h

/-- Outside a frame start the bytes are the present ones. -/
theorem oneSide_of_ahead_nil (h : s.ahead = []) : s.oneSide = s := by simp [State.oneSide, h]

/-- Within a frame start the bytes are those that its end leaves. -/
theorem oneSide_of_entered (h : s.ahead ≠ []) : s.oneSide = s.enterFrame.framed := by simp [State.oneSide, h]

end Taken

/-- Settles O59: the bytes outside and within a frame start, their places, and ECHO. -/
theorem statusAndEchoAnswer : Obligations.StatusAndEchoAnswer := by
  refine ⟨fun p s ht hahead => ?outside, fun p s order ht hahead => ?within, fun s => ?bytes, fun p s => echo_answers⟩
  case outside =>
    rw [status_answers ht, oneSide_of_ahead_nil ((State.taken_ahead s p .status).trans hahead), statusBytes_taken]
  case within =>
    have hentered : (s.taken .status p).ahead ≠ [] := by rwa [State.taken_ahead]
    refine ⟨_, rfl, ?_⟩
    rw [status_answers ht, oneSide_of_entered hentered, statusBytes_queueAll]
  case bytes =>
    have htimelines := statusBytes_timeline s
    rw [statusBytes_eq] at htimelines ⊢
    refine ⟨rfl, rfl, rfl, rfl, rfl, rfl, rfl, rfl, rfl, ?job, rfl, htimelines, rfl, rfl, ?record, ?toStudio, ?toForecast⟩
    case job => cases s.render.job <;> rfl
    case record => cases s.fault.record <;> rfl
    case toStudio => cases s.memo.forecastToStudio <;> rfl
    case toForecast => cases s.memo.studioToForecast <;> rfl

end Sys2Proof.Machine
end

section
/-! A step on its queue of commands (O1). -/

namespace Sys2Proof.Machine

section Queue

variable (s : State)

theorem step_front {c : Instr} {rest : List Instr} (h : s.pending = c :: rest) : step s = exec c (s.withPending rest) := by
  simp only [step, h]

theorem step_empty (h : s.pending = []) : step s = .next s.tick := by
  simp only [step, h]

/-- The clock moves on by one pixel period at most, and never back (log 1). -/
theorem passPeriod_now : s.timing.now ≤ s.passPeriod.timing.now ∧ s.passPeriod.timing.now ≤ s.timing.now + 1 := by
  unfold State.passPeriod
  split
  · rw [State.advanceTo_timing]
    dsimp only
    omega
  · omega

/-- Drawing an item takes no time, so a step on an empty queue takes one pixel period at most (log 1, log 9). -/
theorem tick_now : s.timing.now ≤ s.tick.timing.now ∧ s.tick.timing.now ≤ s.timing.now + 1 := by
  have hdrawn : s.drawOne.timing = s.timing := (frame_drawOne s).timing_eq (by simp) (by simp)
  have h := passPeriod_now s.drawOne
  rwa [hdrawn] at h

end Queue

/-- Settles O1: the command at the front, and the tick of an empty queue. -/
theorem stepCarriesOutFrontCommand : Obligations.StepCarriesOutFrontCommand :=
  ⟨fun _ _ s => step_front s,
    fun s h => ⟨s.tick, step_empty s h, ((frame_tick s).pending_eq (by simp)).trans h, tick_now s⟩⟩

end Sys2Proof.Machine
end

section
/-! The memo slots: MEMO POST, TAKE and WITHDRAW, and the countdown of a memo at a frame start (O60). -/

namespace Sys2Proof.Machine

/-! ### Slots and links (R173) -/

/-- What a link posts is for the other link. -/
theorem slotReceiver_postSlot_ne (l : Link) : slotReceiver (postSlot l) ≠ l := by cases l <;> decide

/-- A change that leaves the memo unit leaves each slot. -/
theorem State.memoSlot_congr {s t : State} (h : t.memo = s.memo) (d : MemoDir) : t.memoSlot d = s.memoSlot d := by
  cases d <;> simp only [State.memoSlot, h]

section Slots

variable (s : State) (d : MemoDir)

@[simp] theorem State.taken_memoSlot (k : Kind) (p : Packet) : (s.taken k p).memoSlot d = s.memoSlot d :=
  State.memoSlot_congr (State.taken_memo s p k) d
@[simp] theorem State.notify_memoSlot (l : Link) (n : Notice) : (s.notify l n).memoSlot d = s.memoSlot d :=
  State.memoSlot_congr (State.notify_memo s l n) d
@[simp] theorem State.finish_memoSlot (l : Link) (st : Status) (r : List Byte) :
    (s.finish l st r).memoSlot d = s.memoSlot d :=
  State.memoSlot_congr (State.finish_memo s l st r) d
@[simp] theorem State.markAhead_memoSlot (h : FramePart) : (s.markAhead h).memoSlot d = s.memoSlot d :=
  State.memoSlot_congr (State.markAhead_memo s h) d
@[simp] theorem State.enterFrame_memoSlot : s.enterFrame.memoSlot d = s.memoSlot d :=
  State.memoSlot_congr ((frame_enterFrame s).memo_eq (by simp)) d

end Slots

/-! ### The owners' cases (R174, R175) -/

/-- The expiry that a MEMO POST carries, clamped (R174). -/
def postedExpiry (p : Packet) : Nat := min (fieldNat p.payload 0 2) 3000

section Owner

variable {p : Packet} {s : State}

theorem ownMemoPost_full (h : s.memoSlot (postSlot p.link) ≠ none) : ownMemoPost p s = s.finish p.link .slotFull [] := by
  obtain ⟨m, hm⟩ := Option.ne_none_iff_exists'.1 h
  simp only [ownMemoPost, hm]

theorem ownMemoPost_fills (h : s.memoSlot (postSlot p.link) = none) :
    ownMemoPost p s =
      ((s.setMemoSlot (postSlot p.link) (some ⟨p.payload.drop 2, countdownOf (postedExpiry p)⟩)).notify
        (slotReceiver (postSlot p.link)) (.memoWaiting (postSlot p.link) (p.payload.length - 2)
          (countdownOf (postedExpiry p)))).finish p.link
        (if postedExpiry p = fieldNat p.payload 0 2 then .ok else .adjusted)
        (countdownBytes (countdownOf (postedExpiry p))) := by
  simp only [ownMemoPost, h, List.length_drop, okOr_bne]
  rfl

theorem ownMemoTake_empty (h : s.memoSlot (takeSlot p.link) = none) : ownMemoTake p s = s.finish p.link .empty [] := by
  simp only [ownMemoTake, h]

theorem ownMemoTake_takes {m : Memo} (h : s.memoSlot (takeSlot p.link) = some m) :
    ownMemoTake p s = (s.setMemoSlot (takeSlot p.link) none).finish p.link .ok m.result := by
  simp only [ownMemoTake, h]

theorem ownMemoWithdraw_empty (h : s.memoSlot (postSlot p.link) = none) :
    ownMemoWithdraw p s = s.finish p.link .empty [] := by
  simp only [ownMemoWithdraw, h]

theorem ownMemoWithdraw_withdraws (h : s.memoSlot (postSlot p.link) ≠ none) :
    ownMemoWithdraw p s = (s.setMemoSlot (postSlot p.link) none).finish p.link .ok [] := by
  obtain ⟨m, hm⟩ := Option.ne_none_iff_exists'.1 h
  simp only [ownMemoWithdraw, hm]

end Owner

/-! ### A slot filled, and a slot emptied, by a command (R174, R175) -/

section Answered

variable (k : Kind) (p : Packet) (s : State) (d : MemoDir)

/-- A slot filled for another link, whose notice goes there, while the reply goes to the poster. -/
theorem filled_answered {l : Link} (hl : l ≠ p.link) (m : Memo) (n : Notice) (st : Status) (r : List Byte) :
    let t := (((s.taken k p).setMemoSlot d (some m)).notify l n).finish p.link st r
    t.memoSlot d = some m ∧ (∀ e, e ≠ d → t.memoSlot e = s.memoSlot e) ∧
      t.port l = Port.notify (n.packet s.timing.frame) (s.port l) ∧
      t.port p.link = Port.finish st r ((s.taken k p).port p.link) := by
  refine ⟨?slot, fun e he => ?other, ?receiver, ?poster⟩
  case slot => rw [State.finish_memoSlot, State.notify_memoSlot, State.setMemoSlot_memoSlot]
  case other =>
    rw [State.finish_memoSlot, State.notify_memoSlot, State.setMemoSlot_memoSlot_other _ he, State.taken_memoSlot]
  case receiver =>
    rw [State.finish_port_other _ hl, State.notify_port, State.setMemoSlot_port, State.setMemoSlot_timing,
      State.taken_port_other _ _ _ hl, State.taken_timing]
  case poster => rw [State.finish_port, State.notify_port_other _ hl.symm, State.setMemoSlot_port]

/-- A slot emptied, and the command answered on its link. -/
theorem emptied_answered (r : List Byte) :
    let t := ((s.taken k p).setMemoSlot d none).finish p.link .ok r
    t.memoSlot d = none ∧ (∀ e, e ≠ d → t.memoSlot e = s.memoSlot e) ∧
      t.port p.link = Port.finish .ok r ((s.taken k p).port p.link) := by
  refine ⟨?slot, fun e he => ?other, ?reply⟩
  case slot => rw [State.finish_memoSlot, State.setMemoSlot_memoSlot]
  case other => rw [State.finish_memoSlot, State.setMemoSlot_memoSlot_other _ he, State.taken_memoSlot]
  case reply => rw [State.finish_port, State.setMemoSlot_port]

end Answered

/-! ### The countdown (R176) -/

section Countdown

variable (body : List Byte)

theorem memoFrame_ends : memoFrame (some ⟨body, some 1⟩) = none := rfl
theorem memoExpires_ends : memoExpires (some ⟨body, some 1⟩) = true := rfl

theorem memoFrame_counts {n : Nat} (h : 2 ≤ n) : memoFrame (some ⟨body, some n⟩) = some ⟨body, some (n - 1)⟩ :=
  if_neg (Nat.not_le.2 h)
theorem memoExpires_counts {n : Nat} (h : 2 ≤ n) : memoExpires (some ⟨body, some n⟩) = false :=
  decide_eq_false (Nat.not_le.2 h)

end Countdown

/-! ### A slot at a frame start (R176) -/

section Frame

variable (s : State) (d : MemoDir)

/-- A slot after its own handling: one that has acted ahead stands (log 6). -/
theorem memoSlotFrame_memoSlot :
    (s.memoSlotFrame d).memoSlot d = if s.isAhead (.memo d) then s.memoSlot d else memoFrame (s.memoSlot d) := by
  unfold State.memoSlotFrame
  split
  · rfl
  · exact State.setMemoSlot_memoSlot s d _

theorem memoSlotFrame_memoSlot_other {e : MemoDir} (h : e ≠ d) : (s.memoSlotFrame d).memoSlot e = s.memoSlot e := by
  unfold State.memoSlotFrame
  split
  · rfl
  · exact State.setMemoSlot_memoSlot_other s h _

/-- The two slots are independent (R173). -/
theorem memoUnitFrame_memoSlot :
    s.memoUnitFrame.memoSlot d = if s.isAhead (.memo d) then s.memoSlot d else memoFrame (s.memoSlot d) := by
  unfold State.memoUnitFrame
  cases d with
  | forecastToStudio => rw [memoSlotFrame_memoSlot_other _ _ (by decide), memoSlotFrame_memoSlot]
  | studioToForecast =>
    rw [memoSlotFrame_memoSlot, memoSlotFrame_memoSlot_other _ _ (by decide), State.isAhead,
      (frame_memoSlotFrame s _).ahead_eq (by simp)]
    rfl

/-- Each slot after the whole frame start. -/
theorem framed_memoSlot :
    s.framed.memoSlot d = if s.isAhead (.memo d) then s.memoSlot d else memoFrame (s.memoSlot d) := by
  have hbefore : Frame [.clock, .timing, .timelines, .blinks] s s.holdoverFrame.timelineFrame.blinkFrame :=
    (((frame_holdoverFrame s).mono (by simp)).trans ((frame_timelineFrame _).mono (by simp))).trans
      ((frame_blinkFrame _).mono (by simp))
  have hafter : s.framed.memo = s.timed.memo := by
    rw [(frame_framed_after s).memo_eq (by simp), (frame_beforeRender_timed s).memo_eq (by simp)]
  rw [State.memoSlot_congr hafter, State.timed, memoUnitFrame_memoSlot, State.isAhead, hbefore.ahead_eq (by simp),
    State.memoSlot_congr (hbefore.memo_eq (by simp))]
  rfl

end Frame

section Due

variable {s : State} {d : MemoDir}

/-- A slot that has not acted ahead handles the frame start with FRAME_START, and its notice is posted where the memo expires. -/
theorem frameStart_memoSlot (order : List FramePart) (ha : FramePart.memo d ∉ s.ahead) :
    ∃ t, exec (.frameStart order) s = .next t ∧ t.memoSlot d = memoFrame (s.memoSlot d) ∧
      s.partNotices (.memo d) = if memoExpires (s.memoSlot d) then [(slotPoster d, .memoExpired d)] else [] := by
  obtain ⟨t, ht, hf⟩ := frameStart_next order s
  refine ⟨t, ht, ?slot, ?notice⟩
  case slot =>
    rw [State.memoSlot_congr (hf.memo_eq (by simp)), framed_memoSlot, enterFrame_isAhead s (by simp), isAhead_eq_false ha,
      State.enterFrame_memoSlot, if_neg Bool.false_ne_true]
  case notice => simp only [partNotices_memo, isAhead_eq_false ha, and_true]

/-- MEMO_EXPIRY of a memo that expires empties its slot and notifies the poster ahead of FRAME_START, in the frame that it enters
(R176, log 6, log 17). -/
theorem memoExpiry_acts (he : memoExpires (s.memoSlot d) = true) (ha : FramePart.memo d ∉ s.ahead) :
    ∃ t, exec (.memoExpiry d) s = .next t ∧ t.memoSlot d = none ∧ (∀ e, e ≠ d → t.memoSlot e = s.memoSlot e) ∧
      t.timing.frame = s.dueFrame ∧
      t.port (slotPoster d) = Port.notify ((Notice.memoExpired d).packet s.dueFrame) (s.port (slotPoster d)) := by
  have hact : (memoExpires (s.memoSlot d) && !s.isAhead (.memo d)) = true := by rw [he, isAhead_eq_false ha]; rfl
  refine ⟨_, congrArg Host.Outcome.next (if_pos hact), ?slot, fun e hne => ?other, ?frame, ?poster⟩
  case slot => rw [State.notify_memoSlot, State.markAhead_memoSlot, State.setMemoSlot_memoSlot]
  case other =>
    rw [State.notify_memoSlot, State.markAhead_memoSlot, State.setMemoSlot_memoSlot_other _ hne, State.enterFrame_memoSlot]
  case frame => rw [State.notify_timing, State.markAhead_timing, State.setMemoSlot_timing, enterFrame_frame]
  case poster =>
    rw [State.notify_port, State.markAhead_port, State.markAhead_timing, State.setMemoSlot_port, State.setMemoSlot_timing,
      enterFrame_frame, (frame_enterFrame s).port_eq _ (by simp)]

end Due

/-- Settles O60: the three commands by their owners' cases, and a slot's handling of a frame start by each of the two rows. -/
theorem memoCommandsActOnTheirSlot : Obligations.MemoCommandsActOnTheirSlot := by
  have post {p : Packet} {s : State} (ht : takes .memoPost p s = true) :
      exec (.memoPost p) s = .next (ownMemoPost p (s.taken .memoPost p)) := exec_of_takes rfl ht
  have take {p : Packet} {s : State} (ht : takes .memoTake p s = true) :
      exec (.memoTake p) s = .next (ownMemoTake p (s.taken .memoTake p)) := exec_of_takes rfl ht
  have withdraw {p : Packet} {s : State} (ht : takes .memoWithdraw p s = true) :
      exec (.memoWithdraw p) s = .next (ownMemoWithdraw p (s.taken .memoWithdraw p)) := exec_of_takes rfl ht
  refine ⟨fun p s ht => ⟨fun h => ?full, fun h => ?fills⟩, fun p s ht => ⟨fun h => ?takeEmpty, fun m h => ?takes⟩,
    fun p s ht => ⟨fun h => ?withdrawEmpty, fun h => ?withdraws⟩,
    fun s d body h ha => ⟨memoExpiry_acts (by rw [h, memoExpires_ends]) ha, fun order => ?ends⟩,
    fun order s d ha => ?counts⟩
  case full => rw [post ht, ownMemoPost_full (by rwa [State.taken_memoSlot])]
  case fills =>
    exact ⟨_, (post ht).trans (congrArg _ (ownMemoPost_fills (by rwa [State.taken_memoSlot]))),
      filled_answered _ p s _ (slotReceiver_postSlot_ne p.link) _ _ _ _⟩
  case takeEmpty => rw [take ht, ownMemoTake_empty (by rwa [State.taken_memoSlot])]
  case takes =>
    exact ⟨_, (take ht).trans (congrArg _ (ownMemoTake_takes (by rwa [State.taken_memoSlot]))),
      emptied_answered _ p s _ _⟩
  case withdrawEmpty => rw [withdraw ht, ownMemoWithdraw_empty (by rwa [State.taken_memoSlot])]
  case withdraws =>
    exact ⟨_, (withdraw ht).trans (congrArg _ (ownMemoWithdraw_withdraws (by rwa [State.taken_memoSlot]))),
      emptied_answered _ p s _ _⟩
  case ends =>
    obtain ⟨t, hexec, hslot, hnotices⟩ := frameStart_memoSlot order ha
    rw [h, memoFrame_ends] at hslot
    rw [h, memoExpires_ends] at hnotices
    exact ⟨t, hexec, hslot, hnotices⟩
  case counts =>
    obtain ⟨t, hexec, hslot, hnotices⟩ := frameStart_memoSlot order ha
    refine ⟨t, hexec, fun h => ?empty, fun body h => ?unlimited, fun body n hn h => ?running⟩
    case empty => rw [hslot, hnotices, h]; exact ⟨rfl, rfl⟩
    case unlimited => rw [hslot, hnotices, h]; exact ⟨rfl, rfl⟩
    case running => rw [hslot, hnotices, h, memoFrame_counts body hn, memoExpires_counts body hn]; exact ⟨rfl, rfl⟩

end Sys2Proof.Machine
end
